-- ==== Sys2Proof/Word.lean ====
section
/-! DEFINITION. The word types of the protocol engine (00_scope.md R13): everything is unsigned. -/

namespace Sys2Proof

/-- A byte: 8 bits, unsigned (R13). -/
abbrev Byte := BitVec 8

/-- `u16` (R13). -/
abbrev Word16 := BitVec 16

/-- `u32` (R13). -/
abbrev Word32 := BitVec 32

end Sys2Proof
end

