-- ==== Sys2Proof/Syntax.lean ====
section
/-! DEFINITION. The operations of the block and the frames of the wire, one constructor of `Instr` per row of
opcode_table.json (30_encoding.md R108, R110), and the plain data their operands are made of. -/

namespace Sys2Proof

/-- The Packet (41_codec.md R150): its length field is the length of `payload`. -/
structure Packet where
  dst : Byte
  src : Byte
  cmd : Byte
  payload : List Byte
  checksum : Word16
  deriving DecidableEq, Repr, Inhabited

/-- The operand bytes of a frame of a fixed command code (30_encoding.md R90): destination, source, payload (its
length is the field `n`), the two checksum bytes as one `u16`, and the byte at offset `7 + n`, where the end
marker belongs. A frame is "one packet attempt, valid or not" (R16), so checksum and last byte are operands. -/
structure FrameFields where
  dst : Byte
  src : Byte
  payload : List Byte
  crc : Word16
  fin : Byte
  deriving DecidableEq, Repr

/-- A handler capability (10_state.md R34): one of the four built-ins (44 R239 to R242), or a handler of an external
collaborator or of the application, known by a number only (44 R243). -/
inductive Handler where
  | ping
  | getVersion
  | heartbeat
  | getStatus
  | external (id : Nat)
  deriving DecidableEq, Repr

/-- What an external handler asks to be sent (44 R243, R245): at most one response. Its source address is not its
own to choose: "A node sets it to MY_ADDR in everything it sends" (30 R93). -/
structure Reply where
  dst : Byte
  cmd : Byte
  payload : List Byte
  deriving DecidableEq, Repr, Inhabited

/-- The seven error codes (30 R102), symbolic. -/
inductive ErrCode where
  | none
  | invalidChecksum
  | invalidAddress
  | invalidCommand
  | invalidLength
  | timeout
  | busy
  deriving DecidableEq, Repr

/-- One draw of 43 R212: the physical transmission succeeds, or fails after some prefix of the frame reached the
line, its last byte possibly damaged (93 U4, U5). -/
inductive TxDraw where
  | ok
  | failure (reached : Nat) (damaged : Option Byte)
  deriving DecidableEq, Repr, Inhabited

/-- The four version bytes (00_scope.md R8). -/
structure Version where
  major : Byte
  minor : Byte
  patch : Byte
  build : Byte
  deriving DecidableEq, Repr

/-- The operands of RESET (70 R310): Node Identity and the open parameters of R8 that a rule reads. -/
structure BootParams where
  myAddr : Byte
  version : Version
  registryInit : List (Byte × Handler)
  deriving DecidableEq, Repr

/-- One constructor per row of the opcode table: 17 frames, then 30 operations. -/
inductive Instr where
  | fPing (f : FrameFields)
  | fPingResp (f : FrameFields)
  | fGetVer (f : FrameFields)
  | fGetVerResp (f : FrameFields)
  | fHeartbeat (f : FrameFields)
  | fHeartbeatResp (f : FrameFields)
  | fGetStatus (f : FrameFields)
  | fGetStatusResp (f : FrameFields)
  | fReadDin (f : FrameFields)
  | fReadDinResp (f : FrameFields)
  | fWriteDout (f : FrameFields)
  | fWriteDoutResp (f : FrameFields)
  | fReadDout (f : FrameFields)
  | fReadAnalog (f : FrameFields)
  | fReadAnalogResp (f : FrameFields)
  | fErrorResp (f : FrameFields)
  | fUnassignedCmd (cmd : Byte) (f : FrameFields)
  | crc16 (bs : List Byte)
  | crcInit
  | crcByte (b : Byte)
  | crcBit (d : Bool)
  | encode (dst src cmd : Byte) (payload : List Byte)
  | decode (bs : List Byte)
  | rxByte (b : Byte) (now : Word32)
  | lineByte (b : Byte) (now : Word32)
  | txReq (dst src cmd : Byte) (payload : List Byte)
  | txA
  | txB
  | txC
  | txD
  | txE (d : TxDraw)
  | txF
  | txG
  | txH
  | dispatch (p : Packet)
  | errResp (dest : Byte) (e : ErrCode)
  | crcErrResp (src : Byte)
  | ping (p : Packet)
  | getVer (p : Packet)
  | heartbeat (p : Packet)
  | getStatus (p : Packet)
  | extHandler (id : Nat) (p : Packet)
  | register (c : Byte) (h : Handler)
  | send (dst src cmd : Byte) (payload : List Byte)
  | tick (elapsedMs : Nat)
  | setHealth (v : Byte)
  | reset (a : BootParams)
  deriving DecidableEq, Repr

end Sys2Proof
end

