-- ==== Sys2Proof/Config.lean ====
section
/-! DEFINITION. The free values: what the spec leaves open and a run needs. None has a body, so no proof can see its
value; each is applied to the counter `freeCtr` of the state, which every use advances. -/

namespace Sys2Proof

/-- 43 R212, 93 U4, U5: the outcome of a physical transmission, where the environment supplied no draw (log 8, 9). -/
opaque Config.txDraw : Nat → TxDraw

/-- 43 R216, 70 R321: how many bytes arrive during a transmit sequence performed as one transition, where the
environment supplied no draw (log 34). -/
opaque Config.txDuring : Nat → Nat

/-- 44 R243, 93 U8, U11: an external handler, "an unknown function from the request packet and the collaborator's
state to zero or one SEND"; the last argument stands for the collaborator's state (log 10). -/
opaque Config.extReply : Nat → Packet → Nat → Option Reply

/-- 10_state.md R39, 93 U3: the unspecified content of `buf` after RESET, by index (log 3). -/
opaque Config.bootBuf : Nat → Nat → Byte

/-- R39, U3: the unspecified `exp_len` after RESET (log 3). -/
opaque Config.bootExpLen : Nat → Byte

/-- R39, U3: the unspecified `last_ts` after RESET (log 3). -/
opaque Config.bootLastTs : Nat → Word32

/-- R39, U3: the unspecified `crc` after RESET (log 3). -/
opaque Config.bootCrc : Nat → Word16

end Sys2Proof
end

