-- ==== Sys2Proof/Decode.lean ====
section
/-! DEFINITION. The wire format (30_encoding.md R90 to R101, R110): the bytes of a frame, the decoder from the line's
bytes to a FRAME instruction, total and refusing by name, and after it the encoder. Operations (EVENT rows) have no
bit pattern (R110). -/

namespace Sys2Proof

/-- `START`, first byte of every frame (00_scope.md R7, 30 R91). -/
def startMarker : Byte := 0xAA

/-- `END`, last byte of every well-formed frame (R7, 30 R98). -/
def endMarker : Byte := 0x55

/-- The command codes of 30 R100. -/
def codePing : Byte := 0x01
def codePingResp : Byte := 0x02
def codeGetVer : Byte := 0x03
def codeGetVerResp : Byte := 0x04
def codeHeartbeat : Byte := 0x05
def codeHeartbeatResp : Byte := 0x06
def codeGetStatus : Byte := 0x10
def codeGetStatusResp : Byte := 0x11
def codeReadDin : Byte := 0x20
def codeReadDinResp : Byte := 0x21
def codeWriteDout : Byte := 0x30
def codeWriteDoutResp : Byte := 0x31
def codeReadDout : Byte := 0x32
def codeReadAnalog : Byte := 0x40
def codeReadAnalogResp : Byte := 0x41
def codeErrorResp : Byte := 0xFF

/-- One row of the table: a code and the instruction it selects (`mask` FF0000FF, 30 R110). -/
abbrev FrameRow := Byte × (FrameFields → Instr)

/-- The sixteen FRAME rows with a code of their own, in the table's order. -/
def frameRows : List FrameRow :=
  [(codePing, .fPing), (codePingResp, .fPingResp), (codeGetVer, .fGetVer), (codeGetVerResp, .fGetVerResp),
   (codeHeartbeat, .fHeartbeat), (codeHeartbeatResp, .fHeartbeatResp), (codeGetStatus, .fGetStatus),
   (codeGetStatusResp, .fGetStatusResp)] ++
  [(codeReadDin, .fReadDin), (codeReadDinResp, .fReadDinResp), (codeWriteDout, .fWriteDout),
   (codeWriteDoutResp, .fWriteDoutResp), (codeReadDout, .fReadDout), (codeReadAnalog, .fReadAnalog),
   (codeReadAnalogResp, .fReadAnalogResp), (codeErrorResp, .fErrorResp)]

/-- The first row with code `c`. -/
def rowOf (c : Byte) : List FrameRow → Option (FrameFields → Instr)
  | [] => none
  | (k, mk) :: rows => if k = c then some mk else rowOf c rows

/-- The instruction a command code selects; F.UNASSIGNED_CMD "is to be tried last" (30 R110). -/
def ofCode (c : Byte) (f : FrameFields) : Instr :=
  match rowOf c frameRows with
  | some mk => mk f
  | none => .fUnassignedCmd c f

/-- One of the 240 codes of 30 R101: no FRAME row of its own. -/
def unassignedCode (c : Byte) : Bool := (rowOf c frameRows).isNone

/-- Why bytes are no frame. -/
inductive DecodeError where
  /-- offset 0 is not the start marker (30 R91) -/
  | noStartMarker
  /-- fewer bytes than the length field announces, or no length field yet (30 R99) -/
  | truncated
  deriving DecidableEq, Repr

/-- Offset 5 on, once the length byte `n` is known (30 R90): `n` payload bytes, checksum low and high, the byte at
the end-marker place; and the bytes after the frame. -/
def splitBody (n : Nat) (bs : List Byte) : Option (List Byte × Word16 × Byte × List Byte) :=
  if n ≤ bs.length then
    match bs.drop n with
    | cl :: ch :: fin :: rest => some (bs.take n, ch ++ cl, fin, rest)
    | _ => none
  else none

/-- The decoder: a FRAME instruction read from the head of the line's bytes, with the bytes after it. The length
comes from the frame itself (30 R99); markers inside a frame are data (R91, R98); the last byte and the checksum are
read, not judged: that is the machine's (42 R180, 41 R155). -/
def decode (bs : List Byte) : Except DecodeError (Instr × List Byte) :=
  match bs with
  | s :: dst :: src :: cmd :: n :: rest =>
    if s = startMarker then
      match splitBody n.toNat rest with
      | some (payload, crc, fin, tail) => .ok (ofCode cmd ⟨dst, src, payload, crc, fin⟩, tail)
      | none => .error .truncated
    else .error .noStartMarker
  | s :: _ => if s = startMarker then .error .truncated else .error .noStartMarker
  | [] => .error .truncated

/-- The frame of 30 R90 with the given command code, offset 0 first. The checksum goes low byte first (R97). -/
def frameBytes (cmd : Byte) (f : FrameFields) : List Byte :=
  [startMarker, f.dst, f.src, cmd, BitVec.ofNat 8 f.payload.length] ++ f.payload ++
    [f.crc.extractLsb' 0 8, f.crc.extractLsb' 8 8, f.fin]

/-- The encoder: the bytes of a FRAME instruction; an operation has none (30 R110). -/
def encode : Instr → Option (List Byte)
  | .fPing f => some (frameBytes codePing f)
  | .fPingResp f => some (frameBytes codePingResp f)
  | .fGetVer f => some (frameBytes codeGetVer f)
  | .fGetVerResp f => some (frameBytes codeGetVerResp f)
  | .fHeartbeat f => some (frameBytes codeHeartbeat f)
  | .fHeartbeatResp f => some (frameBytes codeHeartbeatResp f)
  | .fGetStatus f => some (frameBytes codeGetStatus f)
  | .fGetStatusResp f => some (frameBytes codeGetStatusResp f)
  | .fReadDin f => some (frameBytes codeReadDin f)
  | .fReadDinResp f => some (frameBytes codeReadDinResp f)
  | .fWriteDout f => some (frameBytes codeWriteDout f)
  | .fWriteDoutResp f => some (frameBytes codeWriteDoutResp f)
  | .fReadDout f => some (frameBytes codeReadDout f)
  | .fReadAnalog f => some (frameBytes codeReadAnalog f)
  | .fReadAnalogResp f => some (frameBytes codeReadAnalogResp f)
  | .fErrorResp f => some (frameBytes codeErrorResp f)
  | .fUnassignedCmd c f => some (frameBytes c f)
  | .crc16 _ | .crcInit | .crcByte _ | .crcBit _ | .encode _ _ _ _ | .decode _ | .rxByte _ _ | .lineByte _ _
  | .txReq _ _ _ _ | .txA | .txB | .txC | .txD | .txE _ | .txF | .txG | .txH | .dispatch _ | .errResp _ _
  | .crcErrResp _ | .ping _ | .getVer _ | .heartbeat _ | .getStatus _ | .extHandler _ _ | .register _ _
  | .send _ _ _ _ | .tick _ | .setHealth _ | .reset _ => none

/-- Byte `k` of a number, least significant first. -/
def byteOf (w k : Nat) : Byte := BitVec.ofNat 8 (w / 256 ^ k)

/-- The first `nbits` bits of `w` as bytes, the first byte from the lowest bits. The table writes `match` with offset
0 leftmost (30 R110); a number that has the start marker only under that reading is read so (log 30). -/
def tableBytes (nbits w : Nat) : List Byte :=
  let bs := (List.range ((nbits + 7) / 8)).map (byteOf w)
  if bs.head? = some startMarker then bs else bs.reverse

/-- The bytes of the instruction whose first `nbits` bits are `w` and whose other bits are 0: `8 + n` of them. -/
def wordBytes (nbits w : Nat) : List Byte :=
  let bs := tableBytes nbits w ++ List.replicate 263 0
  bs.take (8 + (bs.getD 4 0).toNat)

/-- The instruction the decoder reads from a table word. -/
def decodeTableWord (nbits w : Nat) : Option Instr :=
  match decode (wordBytes nbits w) with
  | .ok (i, _) => some i
  | .error _ => none

end Sys2Proof
end

