-- ==== Sys2Proof/Machine/State.lean ====
section
/-! DEFINITION. The state of one node (10_state.md R20), the reasons a step can stop, and the state after reset
(R39, 70 R310, R311). -/

namespace Sys2Proof.Machine

open Sys2Proof

/-- The accumulation buffer as a list of (index, byte): indexes strictly rising, no entry equal to 0, which an
unlisted index reads as (log 4). -/
abbrev Memory := List Host.Cell

/-- The handler table as a list of (code, handler), codes strictly rising; an unlisted code has no handler (R34). -/
abbrev Registry := List (Nat × Handler)

/-- The position of the transmit sequencer (R30): step X is the next to be performed. -/
inductive Phase where
  | listen | a | b | c | d | e | f | g | h
  deriving DecidableEq, Repr

/-- What a transmit request gives back (43 R203, R212; 41 R152): ok, a failure from step (e), or the codec's. -/
inductive TxResult where
  | ok
  | txFail
  | encodeLen
  deriving DecidableEq, Repr

/-- Who waits for a transmit request that is kept in steps: TXREQ itself, or SEND around it (44 R246). -/
inductive Caller where
  | txReq
  | send
  deriving DecidableEq, Repr

/-- What the environment decides about one transmit sequence: its outcome (43 R212), and how many bytes arrive during
it where it is one transition (43 R216). -/
structure SeqDraw where
  outcome : TxDraw
  during : Nat
  deriving DecidableEq, Repr

/-- The outputs of the Frame Assembler (42 R183). -/
inductive Emission where
  | frameValid (p : Packet)
  | frameCrcError (src : Byte)
  deriving DecidableEq, Repr

/-- The result of an operation, for its caller (30 R108, column "result"). -/
inductive Ret where
  | none
  | crc (c : Word16)
  | frame (f : List Byte)
  | encodeFailure
  | packet (p : Packet)
  | checksumMismatch (src : Byte)
  | tx (r : TxResult)
  deriving DecidableEq, Repr

/-- One input of the node (70 R315). -/
inductive Input where
  /-- bytes that arrive on the line, each at the clock reading `t` (the groups of 30 R109) -/
  | wire (t : Word32) (bs : List Byte)
  /-- an operation is invoked by one of the agents of 00 R10 -/
  | call (i : Instr)
  /-- a transmit request whose eight steps are kept apart (43 R216) -/
  | openTx (c : Caller) (dst src cmd : Byte) (payload : List Byte)
  deriving DecidableEq, Repr

/-- The state of one node. After `version` stand what R35 and R203 imply, then the model's own fields (log 14, 15). -/
structure State where
  /-- R21 -/
  crc : Word16
  /-- R22 -/
  buf : Memory
  /-- R25 -/
  idx : Nat
  /-- R23 -/
  expLen : Byte
  /-- R24 -/
  lastTs : Word32
  /-- R27 -/
  drive : Bool
  /-- R28 -/
  rxSuppress : Bool
  /-- R29 -/
  txActive : Bool
  /-- R30 -/
  phase : Phase
  /-- R31; after step (d) dead, and left as it is (log 33) -/
  txFrame : List Byte
  /-- R32 -/
  rxCount : Word32
  /-- R32 -/
  txCount : Word32
  /-- R32 -/
  errCount : Word32
  /-- R32 -/
  uptimeS : Word32
  /-- R32 -/
  health : Byte
  /-- R33 -/
  myAddr : Byte
  /-- R34 -/
  registry : Registry
  /-- R8: the version bytes of 44 R240 -/
  version : Version
  /-- the outcome recorded by step (e) (43 R203, R208) -/
  txOutcome : TxResult
  /-- R35 (b): bytes written to the line and not yet shifted out -/
  inFlight : List Byte
  /-- R35 (d): the reading of the millisecond clock for the bytes now arriving -/
  clock : Word32
  /-- who waits for a request kept in steps -/
  caller : Option Caller
  /-- the inputs not yet performed, first one first -/
  inbox : List Input
  /-- the draws of 43 R212 and R216 the environment has supplied, first one first -/
  draws : List SeqDraw
  /-- how many of the next bytes of the input stream arrived during the last sequence performed as one transition, and
  are deleted from it (43 R216, 70 R321; log 34) -/
  lost : Nat
  /-- makes each free value of Config fresh -/
  freeCtr : Nat
  /-- record of the output `line_tx` (00 R15) -/
  lineTx : List Byte
  /-- record of this node's bytes that appeared on the line (43 R212) -/
  onLine : List Byte
  /-- record of the outputs of 42 R183 -/
  emitted : List Emission
  /-- what the last operation with a result gave its caller -/
  ret : Ret
  deriving DecidableEq, Repr

/-- Why a step can stop with a fault. -/
inductive Fault where
  /-- an access of `buf` at an index outside 0 to 255 (20 R60), raised by the buffer operations of Machine/Ops.lean;
  safe: no operation forms such an index (42 R186) -/
  | bufferRange (i : Nat)
  deriving DecidableEq, Repr

/-- Why a step can be refused. -/
inductive Refusal where
  /-- an instruction without a meaning in this model; safe -/
  | notModelled (mnemonic : String)
  /-- X_REENTRANT_TX: a transmit request while one is in flight (43 R213, 93 U1), raised by TXREQ; safe -/
  | reentrantTx
  /-- X_DECODE_SHORT: DECODE without its precondition (41 R154, 93 U2), raised by DECODE; safe -/
  | decodeShort
  /-- RESET with MY_ADDR = 0x00 (10 R33, 93 U12), raised by RESET; safe -/
  | broadcastIdentity
  /-- a step (a) to (h) out of its turn (10 R30, 20 R72), raised by TX.A to TX.H; safe -/
  | txStepOutOfTurn
  /-- an operation other than those 43 R216 allows between two steps of a transmit sequence, raised by the fetch;
  safe -/
  | insideTransmit
  deriving DecidableEq, Repr

/-- The state right after boot (10_state.md R39). Where R39 says unspecified, and for the arguments of boot, the values
are this model's (log 3 to 6, 14). -/
def State.reset : State where
  crc := 0
  buf := []
  idx := 0
  expLen := 0
  lastTs := 0
  drive := false
  rxSuppress := false
  txActive := false
  phase := .listen
  txFrame := []
  rxCount := 0
  txCount := 0
  errCount := 0
  uptimeS := 0
  health := 100
  myAddr := 0x01
  registry := [(0x01, .ping), (0x03, .getVersion), (0x05, .heartbeat), (0x10, .getStatus)]
  version := ⟨0, 0, 0, 0⟩
  txOutcome := .ok
  inFlight := []
  clock := 0
  caller := none
  inbox := []
  draws := []
  lost := 0
  freeCtr := 0
  lineTx := []
  onLine := []
  emitted := []
  ret := .none

end Sys2Proof.Machine
end

