-- ==== Sys2Proof/Machine/Ops.lean ====
section
/-! DEFINITION. The named operations over the state: the accumulation buffer, the registry, the draws, and `raise`, the
one operation by which an error condition has its effect (00 R15, 60_exceptions.md R270). There is no trap entry and no
return (60 R285, R286). -/

namespace Sys2Proof.Machine

open Sys2Proof

/-- The outcome of an operation. -/
abbrev Res := Host.Outcome State Fault Refusal

/-- Go on with `k` from a next state; a stop stays. -/
def andThen (r : Res) (k : State → Res) : Res :=
  match r with
  | .next s => k s
  | .fault f => .fault f
  | .refused x => .refused x

/-! The accumulation buffer (20_memory.md R60). -/

/-- `BUF_CAP` (00 R7). -/
def bufCap : Nat := 256

/-- What an unlisted index reads as (log 4). -/
def unlistedByte : Byte := 0

/-- The canonical form: indexes strictly rising and inside the buffer, no entry equal to an unlisted one. -/
def Memory.wf (m : Memory) : Bool :=
  decide (m.Pairwise (fun x y => x.1 < y.1)) && m.all (fun x => decide (x.1 < bufCap) && x.2 != unlistedByte)

/-- The byte at index `i`. -/
def Memory.read (m : Memory) (i : Nat) : Byte :=
  match m with
  | [] => unlistedByte
  | (k, v) :: rest => if k = i then v else Memory.read rest i

/-- `m` with an entry for `i` put in its place, or none where the byte is the unlisted one. -/
def Memory.cons (i : Nat) (b : Byte) (m : Memory) : Memory := if b = unlistedByte then m else (i, b) :: m

/-- `m` with byte `b` at index `i`, in canonical form. -/
def Memory.write (m : Memory) (i : Nat) (b : Byte) : Memory :=
  match m with
  | [] => Memory.cons i b []
  | (k, v) :: rest =>
    if i < k then Memory.cons i b ((k, v) :: rest)
    else if i = k then Memory.cons i b rest
    else (k, v) :: Memory.write rest i b

/-- The buffer that holds `f i` at each index `i` of 0 to 255. -/
def Memory.ofFn (f : Nat → Byte) : Memory :=
  (List.range bufCap).filterMap (fun i => if f i = unlistedByte then none else some (i, f i))

/-- `buf[i] <- b` (R60); an index outside 0 to 255 is a fault. -/
def bufStore (i : Nat) (b : Byte) (s : State) : Except Fault State :=
  if i < bufCap then .ok { s with buf := Memory.write s.buf i b } else .error (.bufferRange i)

/-- `buf[i]` (R60). -/
def bufLoad (i : Nat) (s : State) : Except Fault Byte :=
  if i < bufCap then .ok (Memory.read s.buf i) else .error (.bufferRange i)

/-- `buf[0 .. n - 1]`, a copy (42 R180). -/
def bufSlice (n : Nat) (s : State) : Except Fault (List Byte) :=
  if n ≤ bufCap then .ok ((List.range n).map (Memory.read s.buf)) else .error (.bufferRange n)

/-! The registry (10_state.md R34, 20_memory.md R62). -/

/-- Codes strictly rising, each a byte. -/
def Registry.wf (r : Registry) : Bool :=
  decide (r.Pairwise (fun x y => x.1 < y.1)) && r.all (fun x => decide (x.1 < 256))

/-- `registry[c]`, by the number of the code. -/
def Registry.find (r : Registry) (c : Nat) : Option Handler :=
  match r with
  | [] => none
  | (k, h) :: rest => if k = c then some h else Registry.find rest c

/-- `registry[c] <- h`, in canonical form. -/
def Registry.put (r : Registry) (c : Nat) (h : Handler) : Registry :=
  match r with
  | [] => [(c, h)]
  | (k, g) :: rest =>
    if c < k then (c, h) :: (k, g) :: rest
    else if c = k then (c, h) :: rest
    else (k, g) :: Registry.put rest c h

/-- `registry[c]`. -/
def handlerOf (c : Byte) (s : State) : Option Handler := Registry.find s.registry c.toNat

/-- The four built-ins, "always pre-registered" (R34, R39). -/
def builtinHandlers : List (Byte × Handler) :=
  [(codePing, .ping), (codeGetVer, .getVersion), (codeHeartbeat, .heartbeat), (codeGetStatus, .getStatus)]

/-- The table after a list of registrations, the last one for a code winning. -/
def registerAll (hs : List (Byte × Handler)) (r : Registry) : Registry :=
  hs.foldl (fun r ch => Registry.put r ch.1.toNat ch.2) r

/-! The draws (43 R212, R216). -/

/-- The next draw: the environment's, or a free one (log 8). -/
def nextDraw (s : State) : TxDraw :=
  match s.draws with
  | d :: _ => d.outcome
  | [] => Config.txDraw s.freeCtr

/-- How many bytes arrive during a sequence that uses that draw and is one transition (log 34). -/
def nextDuring (s : State) : Nat :=
  match s.draws with
  | d :: _ => d.during
  | [] => Config.txDuring s.freeCtr

/-- The state once that draw is used. -/
def dropDraw (s : State) : State :=
  match s.draws with
  | _ :: ds => { s with draws := ds }
  | [] => { s with freeCtr := s.freeCtr + 1 }

/-- Which bytes of a frame appeared on the line (43 R212, 93 U4): all of them on `ok`; on a failure some prefix, its
last byte possibly damaged. -/
def appeared (d : TxDraw) (f : List Byte) : List Byte :=
  match d with
  | .ok => f
  | .failure k damaged =>
    match damaged, f.take k with
    | none, p => p
    | some _, [] => []
    | some b, x :: p => (x :: p).dropLast ++ [b]

/-! Error conditions (60_exceptions.md R270). -/

/-- The nine conditions. -/
inductive XCond where
  | badEnd
  | overflow
  | idleTimeout
  | checksum
  | unsupported
  | txFail
  | encodeLen
  | reentrantTx
  | decodeShort
  deriving DecidableEq, Repr

/-- The column "state change" of R270's table. X_CHECKSUM finds the assembler already in Idle and X_UNSUPPORTED the
receive count already moved; their wire responses are CRCERRRESP and ERRRESP (44 R235, R237). -/
def errorChange (x : XCond) (s : State) : State :=
  match x with
  | .badEnd | .overflow => { s with idx := 0, errCount := s.errCount + 1 }
  | .idleTimeout => { s with idx := 0 }
  | .txFail => { s with errCount := s.errCount + 1 }
  | .checksum | .unsupported | .encodeLen | .reentrantTx | .decodeShort => s

/-- `raise X` (00 R15): exactly the state change of R270, or a refusal for the two contract violations (60 R278). -/
def raise (x : XCond) (s : State) : Res :=
  match x with
  | .reentrantTx => .refused .reentrantTx
  | .decodeShort => .refused .decodeShort
  | .badEnd | .overflow | .idleTimeout | .checksum | .unsupported | .txFail | .encodeLen => .next (errorChange x s)

end Sys2Proof.Machine
end

