-- ==== Sys2Proof/Machine/Operands.lean ====
section
/-! DEFINITION. Operand forms: little-endian words (00 R14, 20 R64), error code numbers (30 R102), and the payloads of
the replies (30 R102 to R105). -/

namespace Sys2Proof.Machine

open Sys2Proof

/-- `le16(c)` (00 R14). -/
def le16 (c : Word16) : List Byte := [c.extractLsb' 0 8, c.extractLsb' 8 8]

/-- `le32(v)` (00 R14). -/
def le32 (v : Word32) : List Byte :=
  [v.extractLsb' 0 8, v.extractLsb' 8 8, v.extractLsb' 16 8, v.extractLsb' 24 8]

/-- `BROADCAST` (00 R7). -/
def broadcast : Byte := 0x00

/-- `MAX_PAYLOAD` (00 R7). -/
def maxPayload : Nat := 250

/-- `IDLE_TIMEOUT_MS` (00 R7). -/
def idleTimeoutMs : Nat := 500

/-- `HEALTH_RESET` (00 R8, 92 D15). -/
def healthReset : Byte := 100

/-- The numbers of the error codes (30 R102, 92 D13; log 20). -/
def errNumber : ErrCode → Byte
  | .none => 0
  | .invalidChecksum => 1
  | .invalidAddress => 2
  | .invalidCommand => 3
  | .invalidLength => 4
  | .timeout => 5
  | .busy => 6

/-- Error-response payload (30 R102). -/
def errorPayload (e : ErrCode) (s : State) : List Byte := [errNumber e, s.myAddr]

/-- Version-response payload (30 R103). -/
def versionPayload (s : State) : List Byte :=
  [s.version.major, s.version.minor, s.version.patch, s.version.build, s.myAddr, 0x00, 0x00, 0x00]

/-- Heartbeat-response payload (30 R104). -/
def heartbeatPayload (s : State) : List Byte := [s.myAddr, s.health]

/-- Status-response payload (30 R105). -/
def statusPayload (s : State) : List Byte :=
  [s.myAddr, s.health] ++ le32 s.uptimeS ++ le32 s.errCount ++ le32 s.rxCount ++ le16 (s.txCount.setWidth 16)

end Sys2Proof.Machine
end

