-- ==== Sys2Proof/Machine/Flags.lean ====
section
/-! DEFINITION. The flags `drive`, `rx_suppress`, `tx_active` (10_state.md R27 to R29): which of them each position of
the transmit sequencer leaves set (43 R204 to R211), the receive gate and what may run during a sequence. -/

namespace Sys2Proof.Machine

open Sys2Proof

/-- `rx_suppress` from step (a) until step (h) (43 R204, R211). -/
def suppressAt : Phase → Bool
  | .listen | .a => false
  | .b | .c | .d | .e | .f | .g | .h => true

/-- `drive` from step (b) until step (g) (43 R205, R210). -/
def driveAt : Phase → Bool
  | .listen | .a | .b | .h => false
  | .c | .d | .e | .f | .g => true

/-- `tx_active` exactly when the phase is not LISTEN (R29). -/
def activeAt : Phase → Bool
  | .listen => false
  | .a | .b | .c | .d | .e | .f | .g | .h => true

/-- The condition under which an arriving byte is dropped (43 R201, 90 C7). -/
def gateClosed (s : State) : Bool := s.rxSuppress || s.drive

/-- Whether the next byte of the input stream arrived during the last transmit sequence, performed as one transition:
it is deleted from the stream (43 R216), since it met the suppression of that sequence (R202; log 34). -/
def overtaken (s : State) : Bool := 0 < s.lost && !gateClosed s

/-- What occurs between two steps of a transmit sequence: bytes on the line and TICK (43 R216), SETHEALTH (92 D28). -/
def fallsInside : Instr → Bool
  | .fPing _ | .fPingResp _ | .fGetVer _ | .fGetVerResp _ | .fHeartbeat _ | .fHeartbeatResp _ | .fGetStatus _
  | .fGetStatusResp _ | .fReadDin _ | .fReadDinResp _ | .fWriteDout _ | .fWriteDoutResp _ | .fReadDout _
  | .fReadAnalog _ | .fReadAnalogResp _ | .fErrorResp _ | .fUnassignedCmd _ _ => true
  | .lineByte _ _ | .tick _ | .setHealth _ => true
  | .txReq _ _ _ _ | .send _ _ _ _ | .txA | .txB | .txC | .txD | .txE _ | .txF | .txG | .txH => false
  | .crc16 _ | .crcInit | .crcByte _ | .crcBit _ | .encode _ _ _ _ | .decode _ | .rxByte _ _ | .dispatch _
  | .errResp _ _ | .crcErrResp _ | .ping _ | .getVer _ | .heartbeat _ | .getStatus _ | .extHandler _ _
  | .register _ _ | .reset _ => false

/-- What may be called while a transmission is in flight: what occurs between two steps, the steps themselves, and a
second request, which is refused in its own name (43 R213). Nothing else, a boot included: there is no cancellation
(10 R30; log 13). -/
def allowedDuringTransmit : Instr → Bool
  | .txReq _ _ _ _ | .send _ _ _ _ | .txA | .txB | .txC | .txD | .txE _ | .txF | .txG | .txH => true
  | i => fallsInside i

end Sys2Proof.Machine
end

