-- ==== Sys2Proof/Machine/Crc.lean ====
section
/-! DEFINITION. The CRC Engine (40_crc.md): CRC16, CRC.INIT, CRC.BYTE, CRC.BIT. -/

namespace Sys2Proof.Machine

open Sys2Proof

/-- `CRC_INIT` (00 R7, 40 R131). -/
def crcStart : Word16 := 0xFFFF

/-- `CRC_POLY` (00 R7). -/
def crcPoly : Word16 := 0xA001

/-- One iteration of 40 R132: bit 0 decides the feedback, after a logical shift. -/
def crcShift (c : Word16) : Word16 :=
  if c.getLsbD 0 then (c >>> 1) ^^^ crcPoly else c >>> 1

/-- `f` repeated `n` times. -/
def repeatN (n : Nat) (f : Word16 → Word16) (c : Word16) : Word16 :=
  match n with
  | 0 => c
  | n + 1 => repeatN n f (f c)

/-- `crc_byte` (40 R132): the byte enters the low eight bits, then eight iterations (log 19). -/
def crcStep (c : Word16) (b : Byte) : Word16 := repeatN 8 crcShift (c ^^^ b.setWidth 16)

/-- `crc_bit` (40 R133). -/
def crcBitStep (c : Word16) (d : Bool) : Word16 :=
  if c.getLsbD 0 ^^ d then (c >>> 1) ^^^ crcPoly else c >>> 1

/-- The bits of a byte, bit 0 first (40 R133, 20 R65). -/
def bitsOf (b : Byte) : List Bool := (List.range 8).map b.getLsbD

/-- `CRC16` (40 R130): no final exclusive-or, no reflection of the result. -/
def crcOf (bs : List Byte) : Word16 := bs.foldl crcStep crcStart

/-- CRC16 as an operation: the register ends at the result, which is returned (40 R130). -/
def execCrc16 (bs : List Byte) (s : State) : Res := .next { s with crc := crcOf bs, ret := .crc (crcOf bs) }

/-- CRC.INIT (40 R131). -/
def execCrcInit (s : State) : Res := .next { s with crc := crcStart }

/-- CRC.BYTE (40 R132). -/
def execCrcByte (b : Byte) (s : State) : Res := .next { s with crc := crcStep s.crc b }

/-- CRC.BIT (40 R133). -/
def execCrcBit (d : Bool) (s : State) : Res := .next { s with crc := crcBitStep s.crc d }

end Sys2Proof.Machine
end

