-- ==== Sys2Proof/WellFormed.lean ====
section
/-! DEFINITION. When the operands of an instruction lie in the domain its row of opcode_table.json gives. The machine
gives a meaning beyond it wherever a rule of the spec does (a payload over 250 bytes has its failure, 41 R152). -/

namespace Sys2Proof

/-- A payload whose length fits the one length byte (30 R90, R95; a receiver tests no tighter range). -/
def payloadFits (p : List Byte) : Bool := p.length ≤ 255

/-- 41 R154: the precondition of DECODE, "`>= 8` and `>= 5 + declaredLength + 3`", without wrap. -/
def decodeReady (b : List Byte) : Bool := 8 ≤ b.length && 5 + (b.getD 4 0).toNat + 3 ≤ b.length

/-- The commands of the external collaborators (44 R243). -/
def collaboratorCode (c : Byte) : Bool :=
  c = codeReadDin || c = codeWriteDout || c = codeReadDout || c = codeReadAnalog

/-- Well-formedness, one check per operand domain of the table. -/
def wellFormed : Instr → Bool
  | .fPing f | .fPingResp f | .fGetVer f | .fGetVerResp f | .fHeartbeat f | .fHeartbeatResp f | .fGetStatus f
  | .fGetStatusResp f | .fReadDin f | .fReadDinResp f | .fWriteDout f | .fWriteDoutResp f | .fReadDout f
  | .fReadAnalog f | .fReadAnalogResp f | .fErrorResp f => payloadFits f.payload
  | .fUnassignedCmd c f => unassignedCode c && payloadFits f.payload
  | .encode _ _ _ payload => payload.length ≤ 250
  | .decode bs => decodeReady bs
  | .dispatch p => payloadFits p.payload
  | .ping p => p.cmd = codePing && payloadFits p.payload
  | .getVer p => p.cmd = codeGetVer && payloadFits p.payload
  | .heartbeat p => p.cmd = codeHeartbeat && payloadFits p.payload
  | .getStatus p => p.cmd = codeGetStatus && payloadFits p.payload
  | .extHandler _ p => collaboratorCode p.cmd && payloadFits p.payload
  | .reset a => a.myAddr != 0
  | .crc16 _ | .crcInit | .crcByte _ | .crcBit _ | .rxByte _ _ | .lineByte _ _ | .txReq _ _ _ _ | .txA | .txB
  | .txC | .txD | .txE _ | .txF | .txG | .txH | .errResp _ _ | .crcErrResp _ | .register _ _ | .send _ _ _ _
  | .tick _ | .setHealth _ => true

end Sys2Proof
end

