-- ==== Sys2Proof/Machine/Codec.lean ====
section
/-! DEFINITION. The Packet Codec (41_codec.md): ENCODE and DECODE. Both change nothing but the transient `crc`. -/

namespace Sys2Proof.Machine

open Sys2Proof

/-- The bytes the checksum covers (41 R151, 40 R135): destination, source, command, length, payload. -/
def checkedBody (dst src cmd : Byte) (payload : List Byte) : List Byte :=
  [dst, src, cmd, BitVec.ofNat 8 payload.length] ++ payload

/-- `ENCODE` (41 R151); `none` is its failure (R152). -/
def packetEncode (dst src cmd : Byte) (payload : List Byte) : Option (List Byte) :=
  if payload.length > maxPayload then none
  else some (frameBytes cmd ⟨dst, src, payload, crcOf (checkedBody dst src cmd payload), endMarker⟩)

/-- The two outcomes of DECODE (41 R155). -/
inductive Decoded where
  | valid (p : Packet)
  | checksumMismatch (src : Byte)
  deriving DecidableEq, Repr

/-- `b[5 .. 4 + n]` with `n = b[4]` (41 R155). -/
def payloadOf (b : List Byte) : List Byte := (b.drop 5).take (b.getD 4 0).toNat

/-- `rx_crc` (41 R155, 20 R63): low byte at `5 + n`, high byte at `6 + n`. -/
def receivedCrc (b : List Byte) : Word16 :=
  (b.getD (5 + (b.getD 4 0).toNat) 0).setWidth 16 ||| ((b.getD (6 + (b.getD 4 0).toNat) 0).setWidth 16 <<< 8)

/-- `calc` (41 R155): the checksum over the extracted fields. -/
def computedCrc (b : List Byte) : Word16 :=
  crcOf ([b.getD 1 0, b.getD 2 0, b.getD 3 0, b.getD 4 0] ++ payloadOf b)

/-- `DECODE` (41 R155), for bytes that meet its precondition. It looks at no marker and at no byte beyond (R157). -/
def packetDecode (b : List Byte) : Decoded :=
  if computedCrc b = receivedCrc b then
    .valid ⟨b.getD 1 0, b.getD 2 0, b.getD 3 0, payloadOf b, receivedCrc b⟩
  else .checksumMismatch (b.getD 2 0)

/-- ENCODE as an operation: the frame, or the failure X_ENCODE_LEN, goes to the caller (41 R151, R152). -/
def execEncode (dst src cmd : Byte) (payload : List Byte) (s : State) : Res :=
  match packetEncode dst src cmd payload with
  | some f => .next { s with crc := crcOf (checkedBody dst src cmd payload), ret := .frame f }
  | none => andThen (raise .encodeLen s) fun t => .next { t with ret := .encodeFailure }

/-- What DECODE's caller is given. -/
def decodedRet : Decoded → Ret
  | .valid p => .packet p
  | .checksumMismatch src => .checksumMismatch src

/-- DECODE as an operation (41 R155); without its precondition X_DECODE_SHORT (R154). -/
def execDecode (bs : List Byte) (s : State) : Res :=
  if decodeReady bs then .next { s with crc := computedCrc bs, ret := decodedRet (packetDecode bs) }
  else raise .decodeShort s

end Sys2Proof.Machine
end

