-- ==== Sys2Proof/Machine/Transmit.lean ====
section
/-! DEFINITION. The transmit sequence of the Bus Direction Controller (43_bus_direction.md R203 to R216) and SEND, the
transmit path around it (44 R246). -/

namespace Sys2Proof.Machine

open Sys2Proof

/-- Acceptance of a request (43 R203): the frame is encoded before step (a), so the register ends at its checksum. -/
def txAccept (dst src cmd : Byte) (payload f : List Byte) (s : State) : State :=
  { s with crc := crcOf (checkedBody dst src cmd payload), txFrame := f, txActive := true, phase := .a }

/-- Step (a) (43 R204). -/
def txStepA (s : State) : State := { s with rxSuppress := true, phase := .b }

/-- Step (b) (43 R205). -/
def txStepB (s : State) : State := { s with drive := true, phase := .c }

/-- Step (c) (43 R206): the first turnaround wait; it has no number (log 17). -/
def txStepC (s : State) : State := { s with phase := .d }

/-- Step (d) (43 R207): `line_tx` of every byte of the frame, in order; the transport then holds them. -/
def txStepD (s : State) : State :=
  { s with lineTx := s.lineTx ++ s.txFrame, inFlight := s.txFrame, phase := .e }

/-- What a draw means for the caller. -/
def drawResult : TxDraw → TxResult
  | .ok => .ok
  | .failure _ _ => .txFail

/-- Step (e) (43 R208, R212): the wait ends, the outcome is recorded, and the bytes have appeared on the line. -/
def txStepE (d : TxDraw) (s : State) : State :=
  { s with onLine := s.onLine ++ appeared d s.inFlight, inFlight := [], txOutcome := drawResult d, phase := .f }

/-- Step (f) (43 R209): the second turnaround wait. -/
def txStepF (s : State) : State := { s with phase := .g }

/-- Step (g) (43 R210). -/
def txStepG (s : State) : State := { s with drive := false, phase := .h }

/-- Step (h) (43 R211). `tx_frame` is dead, and left as it is (log 33). -/
def txStepH (s : State) : State := { s with rxSuppress := false, txActive := false, phase := .listen }

/-- Steps (a) to (h) in order, with the next draw at step (e) (43 R203, R214), as one transition: the bytes that arrive
during it are the next ones of the input stream, and are to be deleted from it (R216, 70 R321; log 34). -/
def txSequence (s : State) : State :=
  let t := txStepD (txStepC (txStepB (txStepA s)))
  { txStepH (txStepG (txStepF (txStepE (nextDraw t) (dropDraw t)))) with lost := nextDuring t }

/-- TXREQ gives back the outcome recorded by step (e) (43 R203, R212). -/
def txReturn (s : State) : State := { s with ret := .tx s.txOutcome }

/-- `TXREQ` (43 R203), one transition (R216). -/
def txRequest (dst src cmd : Byte) (payload : List Byte) (s : State) : Res :=
  if s.txActive then raise .reentrantTx s
  else
    match packetEncode dst src cmd payload with
    | none => andThen (raise .encodeLen s) fun t => .next { t with ret := .tx .encodeLen }
    | some f => .next (txReturn (txSequence (txAccept dst src cmd payload f s)))

/-- The accounting of SEND (44 R246): once, when TXREQ has returned. A failure of step (e) is X_TX_FAIL. -/
def txAccount (s : State) : Res :=
  match s.ret with
  | .tx .ok => .next { s with txCount := s.txCount + 1 }
  | .tx .txFail => raise .txFail s
  | _ => .next s

/-- `SEND` (44 R246). -/
def transmit (dst src cmd : Byte) (payload : List Byte) (s : State) : Res :=
  andThen (txRequest dst src cmd payload s) txAccount

/-- A request whose eight steps are kept apart (43 R216): accepted, and nothing more. -/
def openRequest (c : Caller) (dst src cmd : Byte) (payload : List Byte) (s : State) : Res :=
  if s.txActive then raise .reentrantTx s
  else
    match packetEncode dst src cmd payload with
    | none => andThen (raise .encodeLen s) fun t => .next { t with ret := .tx .encodeLen }
    | some f => .next { txAccept dst src cmd payload f s with caller := some c }

/-- The end of a request kept in steps: the caller waiting for it gets the outcome, and SEND counts it. -/
def returnToCaller (s : State) : Res :=
  match s.caller with
  | none => .next s
  | some .txReq => .next { txReturn s with caller := none }
  | some .send => txAccount { txReturn s with caller := none }

/-- A step of the sequence in its turn; out of its turn it has no meaning (10 R30, 20 R72; log 12). -/
def inTurn (p : Phase) (k : State → Res) (s : State) : Res :=
  if s.phase = p then k s else .refused .txStepOutOfTurn

/-- TXREQ (43 R203). -/
def execTxReq (dst src cmd : Byte) (payload : List Byte) (s : State) : Res := txRequest dst src cmd payload s

/-- TX.A (43 R204). -/
def execTxA (s : State) : Res := inTurn .a (fun t => .next (txStepA t)) s

/-- TX.B (43 R205). -/
def execTxB (s : State) : Res := inTurn .b (fun t => .next (txStepB t)) s

/-- TX.C (43 R206). -/
def execTxC (s : State) : Res := inTurn .c (fun t => .next (txStepC t)) s

/-- TX.D (43 R207). -/
def execTxD (s : State) : Res := inTurn .d (fun t => .next (txStepD t)) s

/-- TX.E (43 R208), with its draw. -/
def execTxE (d : TxDraw) (s : State) : Res := inTurn .e (fun t => .next (txStepE d t)) s

/-- TX.F (43 R209). -/
def execTxF (s : State) : Res := inTurn .f (fun t => .next (txStepF t)) s

/-- TX.G (43 R210). -/
def execTxG (s : State) : Res := inTurn .g (fun t => .next (txStepG t)) s

/-- TX.H (43 R211); the request returns after it (R203, R212). -/
def execTxH (s : State) : Res := inTurn .h (fun t => returnToCaller (txStepH t)) s

/-- SEND (44 R246). -/
def execSend (dst src cmd : Byte) (payload : List Byte) (s : State) : Res := transmit dst src cmd payload s

end Sys2Proof.Machine
end

