-- ==== Sys2Proof/Machine/Dispatcher.lean ====
section
/-! DEFINITION. The Command Dispatcher and the Node Status Register (44_dispatcher_status.md). -/

namespace Sys2Proof.Machine

open Sys2Proof

/-- `ERRRESP` (44 R236). -/
def errorResponse (dest : Byte) (e : ErrCode) (s : State) : Res :=
  transmit dest s.myAddr codeErrorResp (errorPayload e s) s

/-- The checksum error response (44 R237): X_CHECKSUM, answered whatever the frame's destination was. -/
def checksumResponse (src : Byte) (s : State) : Res :=
  andThen (raise .checksum s) (errorResponse src .invalidChecksum)

/-- The built-in ping (44 R239). -/
def pingReply (p : Packet) (s : State) : Res := transmit p.src s.myAddr codePingResp [] s

/-- The built-in get-version (44 R240). -/
def versionReply (p : Packet) (s : State) : Res := transmit p.src s.myAddr codeGetVerResp (versionPayload s) s

/-- The built-in heartbeat (44 R241). -/
def heartbeatReply (p : Packet) (s : State) : Res :=
  transmit p.src s.myAddr codeHeartbeatResp (heartbeatPayload s) s

/-- The built-in get-status (44 R242): the values when the handler runs. -/
def statusReply (p : Packet) (s : State) : Res := transmit p.src s.myAddr codeGetStatusResp (statusPayload s) s

/-- An external handler (44 R243, R245): zero or one SEND, as the unknown function says (log 10). -/
def externalReply (id : Nat) (p : Packet) (s : State) : Res :=
  match Config.extReply id p s.freeCtr with
  | none => .next { s with freeCtr := s.freeCtr + 1 }
  | some r => transmit r.dst s.myAddr r.cmd r.payload { s with freeCtr := s.freeCtr + 1 }

/-- The invocation of a handler with a packet (44 R245). -/
def runHandler (h : Handler) (p : Packet) (s : State) : Res :=
  match h with
  | .ping => pingReply p s
  | .getVersion => versionReply p s
  | .heartbeat => heartbeatReply p s
  | .getStatus => statusReply p s
  | .external id => externalReply id p s

/-- The address filter (44 R232). -/
def addressed (p : Packet) (s : State) : Bool := p.dst = s.myAddr || p.dst = broadcast

/-- `DISPATCH` (44 R231): filter, receive count, lookup; a missing handler is X_UNSUPPORTED (R235). -/
def dispatchPacket (p : Packet) (s : State) : Res :=
  if addressed p s then
    let t := { s with rxCount := s.rxCount + 1 }
    match handlerOf p.cmd t with
    | some h => runHandler h p t
    | none => andThen (raise .unsupported t) (errorResponse p.src .invalidCommand)
  else .next s

/-- DISPATCH (44 R231). -/
def execDispatch (p : Packet) (s : State) : Res := dispatchPacket p s

/-- ERRRESP (44 R236). -/
def execErrResp (dest : Byte) (e : ErrCode) (s : State) : Res := errorResponse dest e s

/-- CRCERRRESP (44 R237). -/
def execCrcErrResp (src : Byte) (s : State) : Res := checksumResponse src s

/-- PING (44 R239). -/
def execPing (p : Packet) (s : State) : Res := pingReply p s

/-- GETVER (44 R240). -/
def execGetVer (p : Packet) (s : State) : Res := versionReply p s

/-- HEARTBEAT (44 R241). -/
def execHeartbeat (p : Packet) (s : State) : Res := heartbeatReply p s

/-- GETSTATUS (44 R242). -/
def execGetStatus (p : Packet) (s : State) : Res := statusReply p s

/-- EXTHANDLER (44 R243). -/
def execExtHandler (id : Nat) (p : Packet) (s : State) : Res := externalReply id p s

/-- REGISTER (44 R244). -/
def execRegister (c : Byte) (h : Handler) (s : State) : Res :=
  .next { s with registry := Registry.put s.registry c.toNat h }

/-- TICK (44 R247): whole seconds, modulo 2^32. -/
def execTick (elapsedMs : Nat) (s : State) : Res := .next { s with uptimeS := BitVec.ofNat 32 (elapsedMs / 1000) }

/-- SETHEALTH (44 R248): any byte, unchanged. -/
def execSetHealth (v : Byte) (s : State) : Res := .next { s with health := v }

end Sys2Proof.Machine
end

