-- ==== Sys2Proof/Machine/Assembler.lean ====
section
/-! DEFINITION. The Frame Assembler (42_frame_assembler.md R171 to R183) and the receive gate before it (43 R201). -/

namespace Sys2Proof.Machine

open Sys2Proof

/-- The condition of step 1 (42 R172): strictly more than 500 ms, modulo 2^32. -/
def idleExpired (now : Word32) (s : State) : Bool := 0 < s.idx && idleTimeoutMs < (now - s.lastTs).toNat

/-- Steps 1 and 2 (42 R172, R173): X_IDLE_TIMEOUT, then the timestamp. -/
def arrive (now : Word32) (s : State) : State :=
  { (if idleExpired now s then errorChange .idleTimeout s else s) with lastTs := now }

/-- Step 3 (42 R174, R175): in Idle only the start marker is kept. -/
def startFrame (b : Byte) (s : State) : Except Fault State :=
  if b = startMarker then do
    let t ← bufStore 0 b s
    .ok { t with idx := 1 }
  else .ok s

/-- Step 6 (42 R178): the fifth byte is latched as the expected payload length. -/
def latchLength (s : State) : Except Fault State :=
  if s.idx = 5 then do
    let n ← bufLoad 4 s
    .ok { s with expLen := n }
  else .ok s

/-- Steps 5 and 6 (42 R177, R178). -/
def appendByte (b : Byte) (s : State) : Except Fault State := do
  let t ← bufStore s.idx b s
  latchLength { t with idx := s.idx + 1 }

/-- The condition of step 7 (42 R179), the sum without wrap. -/
def structurallyComplete (s : State) : Bool := 8 ≤ s.idx && 5 + s.expLen.toNat + 3 ≤ s.idx

/-- The output a decoded frame causes (42 R183). -/
def emissionOf : Decoded → Emission
  | .valid p => .frameValid p
  | .checksumMismatch src => .frameCrcError src

/-- The hand-off of a frame with a good end marker (42 R180, R182): Idle first, then DECODE and the output. -/
def handOff (frame : List Byte) (s : State) : State × Option Emission :=
  let e := emissionOf (packetDecode frame)
  ({ s with idx := 0, crc := computedCrc frame, emitted := s.emitted ++ [e] }, some e)

/-- Step 7 (42 R179 to R181). -/
def finishFrame (s : State) : Except Fault (State × Option Emission) :=
  if structurallyComplete s then do
    let last ← bufLoad (s.idx - 1) s
    if last = endMarker then do
      let frame ← bufSlice s.idx s
      .ok (handOff frame s)
    else .ok (errorChange .badEnd s, none)
  else .ok (s, none)

/-- The seven steps of `RXBYTE` (42 R171), up to the output, in the normative order. -/
def assemble (b : Byte) (now : Word32) (s : State) : Except Fault (State × Option Emission) :=
  let t := arrive now s
  if t.idx = 0 then do
    let u ← startFrame b t
    .ok (u, none)
  else if bufCap ≤ t.idx then .ok (errorChange .overflow t, none)
  else do
    let u ← appendByte b t
    finishFrame u

/-- The consumer of an output, run inside the same invocation (42 R183, 20 R71). -/
def consume (e : Emission) (s : State) : Res :=
  match e with
  | .frameValid p => dispatchPacket p s
  | .frameCrcError src => checksumResponse src s

/-- `RXBYTE` of the whole node (42 R171, R183). -/
def receiveByte (b : Byte) (now : Word32) (s : State) : Res :=
  match assemble b now s with
  | .error f => .fault f
  | .ok (t, none) => .next t
  | .ok (t, some e) => consume e t

/-- `LINEBYTE` (43 R201): a byte that arrives while the gate is closed is dropped before any parsing (R202). -/
def lineArrival (b : Byte) (now : Word32) (s : State) : Res :=
  if gateClosed s then .next s else receiveByte b now s

/-- LINEBYTE for each byte of a sequence, in order, at one clock reading (20 R70, 30 R109), but for bytes that arrived
during the last response (43 R216): those are gone. A response in the middle may overtake the bytes that follow it. -/
def deliver (bs : List Byte) (now : Word32) (s : State) : Res :=
  match bs with
  | [] => .next s
  | b :: rest =>
    if overtaken s then deliver rest now { s with lost := s.lost - 1 }
    else andThen (lineArrival b now s) (deliver rest now)

/-- RXBYTE (42 R171). -/
def execRxByte (b : Byte) (now : Word32) (s : State) : Res := receiveByte b now s

/-- LINEBYTE (43 R201). -/
def execLineByte (b : Byte) (now : Word32) (s : State) : Res := lineArrival b now s

end Sys2Proof.Machine
end

