-- ==== Sys2Proof/Machine/Frames.lean ====
section
/-! DEFINITION. The FRAME rows: a frame of a given command code arrives on the line, and each of its bytes, offset 0
first, is a LINEBYTE at the present clock reading (00 R9, 30 R90, R109, 43 R201). What becomes of it is what the gate,
the assembler, the codec and the dispatcher do with those bytes (log 1). -/

namespace Sys2Proof.Machine

open Sys2Proof

/-- The arrival of the frame with command code `c`. -/
def frameArrival (c : Byte) (f : FrameFields) (s : State) : Res := deliver (frameBytes c f) s.clock s

/-- F.PING: the ping request (44 R239). -/
def execFPing (f : FrameFields) (s : State) : Res := frameArrival codePing f s

/-- F.PING_RESP: the ping response (44 R239, R250). -/
def execFPingResp (f : FrameFields) (s : State) : Res := frameArrival codePingResp f s

/-- F.GETVER: the get-version request (44 R240). -/
def execFGetVer (f : FrameFields) (s : State) : Res := frameArrival codeGetVer f s

/-- F.GETVER_RESP: the version response (44 R240, R250). -/
def execFGetVerResp (f : FrameFields) (s : State) : Res := frameArrival codeGetVerResp f s

/-- F.HEARTBEAT: the heartbeat request (44 R241). -/
def execFHeartbeat (f : FrameFields) (s : State) : Res := frameArrival codeHeartbeat f s

/-- F.HEARTBEAT_RESP: the heartbeat response (44 R241, R250). -/
def execFHeartbeatResp (f : FrameFields) (s : State) : Res := frameArrival codeHeartbeatResp f s

/-- F.GETSTATUS: the get-status request (44 R242). -/
def execFGetStatus (f : FrameFields) (s : State) : Res := frameArrival codeGetStatus f s

/-- F.GETSTATUS_RESP: the status response (44 R242, R250). -/
def execFGetStatusResp (f : FrameFields) (s : State) : Res := frameArrival codeGetStatusResp f s

/-- F.READ_DIN: read-digital-inputs (44 R243). -/
def execFReadDin (f : FrameFields) (s : State) : Res := frameArrival codeReadDin f s

/-- F.READ_DIN_RESP: the digital-input response (44 R243, R250). -/
def execFReadDinResp (f : FrameFields) (s : State) : Res := frameArrival codeReadDinResp f s

/-- F.WRITE_DOUT: write-digital-outputs (44 R243). -/
def execFWriteDout (f : FrameFields) (s : State) : Res := frameArrival codeWriteDout f s

/-- F.WRITE_DOUT_RESP: the digital-output response (44 R243, R250). -/
def execFWriteDoutResp (f : FrameFields) (s : State) : Res := frameArrival codeWriteDoutResp f s

/-- F.READ_DOUT: read-digital-outputs (44 R243). -/
def execFReadDout (f : FrameFields) (s : State) : Res := frameArrival codeReadDout f s

/-- F.READ_ANALOG: read-analog (44 R243). -/
def execFReadAnalog (f : FrameFields) (s : State) : Res := frameArrival codeReadAnalog f s

/-- F.READ_ANALOG_RESP: the analog response (44 R243, R250). -/
def execFReadAnalogResp (f : FrameFields) (s : State) : Res := frameArrival codeReadAnalogResp f s

/-- F.ERROR_RESP: the error response (44 R236, R250). -/
def execFErrorResp (f : FrameFields) (s : State) : Res := frameArrival codeErrorResp f s

/-- F.UNASSIGNED_CMD: any of the 240 other codes (30 R101). -/
def execFUnassignedCmd (cmd : Byte) (f : FrameFields) (s : State) : Res := frameArrival cmd f s

end Sys2Proof.Machine
end

