-- ==== Sys2Proof/Machine/Boot.lean ====
section
/-! DEFINITION. RESET (70_reset_and_hazards.md R310): boot, with Node Identity and the parameters as operands. -/

namespace Sys2Proof.Machine

open Sys2Proof

/-- Every piece of the node's state at the value of 10_state.md R39; what R39 leaves unspecified is free (log 3). What
lies outside the node stays: inputs, draws, clock, the records (log 27). Of bytes still in the
transmitter, if there are any, a free part appears on the line. -/
def boot (a : BootParams) (s : State) : State :=
  { s with
    crc := Config.bootCrc s.freeCtr
    buf := Memory.ofFn (Config.bootBuf s.freeCtr)
    idx := 0
    expLen := Config.bootExpLen s.freeCtr
    lastTs := Config.bootLastTs s.freeCtr
    drive := false
    rxSuppress := false
    txActive := false
    phase := .listen
    txFrame := []
    rxCount := 0
    txCount := 0
    errCount := 0
    uptimeS := 0
    health := healthReset
    myAddr := a.myAddr
    registry := registerAll (builtinHandlers ++ a.registryInit) []
    version := a.version
    txOutcome := .ok
    inFlight := []
    caller := none
    lost := 0
    freeCtr := s.freeCtr + 1
    onLine := s.onLine ++ appeared (Config.txDraw s.freeCtr) s.inFlight
    ret := .none }

/-- RESET (70 R310); with `MY_ADDR = 0x00` it is refused (10 R33, 93 U12). -/
def execReset (a : BootParams) (s : State) : Res :=
  if a.myAddr = broadcast then .refused .broadcastIdentity else .next (boot a s)

end Sys2Proof.Machine
end

