-- ==== Sys2Proof/Machine/Fetch.lean ====
section
/-! DEFINITION. What the machine does next: the first input event, a frame read from the arriving bytes, or the next
step of a transmit sequence in flight (00 R10, 70 R315, 43 R214, R216). -/

namespace Sys2Proof.Machine

open Sys2Proof

/-- What a step has fetched: an instruction to execute from a state, or an answer that needs none. -/
inductive Fetched where
  | run (i : Instr) (s : State)
  | answer (r : Res)

/-- The step of the transmit sequence that is due (10 R30), with its draw at (e). -/
def dueStep (s : State) : Option (Instr × State) :=
  match s.phase with
  | .listen => none
  | .a => some (.txA, s)
  | .b => some (.txB, s)
  | .c => some (.txC, s)
  | .d => some (.txD, s)
  | .e => some (.txE (nextDraw s), dropDraw s)
  | .f => some (.txF, s)
  | .g => some (.txG, s)
  | .h => some (.txH, s)

/-- The inputs with the bytes `bs` of a group still to arrive. -/
def putBack (t : Word32) (bs : List Byte) (rest : List Input) : List Input :=
  match bs with
  | [] => rest
  | b :: bs => .wire t (b :: bs) :: rest

/-- Bytes arriving at reading `t`: those that arrived during the last response are deleted (43 R216, 70 R321); else a
frame if the decoder reads one at their head, else one byte, a LINEBYTE. -/
def fetchWire (t : Word32) (bs : List Byte) (rest : List Input) (s : State) : Fetched :=
  if overtaken s then
    .answer (.next { s with clock := t, lost := s.lost - bs.length, inbox := putBack t (bs.drop s.lost) rest })
  else
    match decode bs with
    | .ok (i, tail) => .run i { s with clock := t, inbox := putBack t tail rest }
    | .error _ =>
      match bs with
      | [] => .answer (.next { s with clock := t, inbox := rest })
      | b :: tail => .run (.lineByte b t) { s with clock := t, inbox := putBack t tail rest }

/-- The inputs without a call of TX.A at their head. -/
def dropCallA (l : List Input) : List Input :=
  match l with
  | .call .txA :: rest => rest
  | other => other

/-- How many of the next bytes still count as arrived during the last sequence when `i` is called: none, unless `i` can
itself fall inside a sequence (43 R216; log 34). -/
def lostAfterCall (i : Instr) (s : State) : Nat := if fallsInside i then s.lost else 0

/-- What the machine does next. A called LINEBYTE is an arriving byte like any other. Nothing comes between the acceptance of a request and step (a) (43 R203; R216 names the
places between two of the eight steps only). With no input left the sequence in flight goes on (R214); without one the
node waits (70 R315). -/
def fetch (s : State) : Fetched :=
  if s.phase = .a then .run .txA { s with inbox := dropCallA s.inbox }
  else
    match s.inbox with
    | [] =>
      match dueStep s with
      | none => .answer (.next s)
      | some (i, t) => .run i t
    | .wire t bs :: rest => fetchWire t bs rest s
    | .call (.lineByte b t) :: rest => fetchWire t [b] rest s
    | .call i :: rest =>
      if s.txActive && !allowedDuringTransmit i then .answer (.refused .insideTransmit)
      else .run i { s with inbox := rest, lost := lostAfterCall i s }
    | .openTx c dst src cmd payload :: rest =>
      .answer (openRequest c dst src cmd payload { s with inbox := rest, lost := 0 })

end Sys2Proof.Machine
end

