-- ==== Sys2Proof/Machine/Dispatch.lean ====
section
/-! DEFINITION. The dispatch of an instruction to its meaning, one arm per constructor. -/

namespace Sys2Proof.Machine

open Sys2Proof

def exec (i : Instr) (s : State) : Host.Outcome State Fault Refusal :=
  match i with
  | .fPing f => Sys2Proof.Machine.execFPing f s
  | .fPingResp f => Sys2Proof.Machine.execFPingResp f s
  | .fGetVer f => Sys2Proof.Machine.execFGetVer f s
  | .fGetVerResp f => Sys2Proof.Machine.execFGetVerResp f s
  | .fHeartbeat f => Sys2Proof.Machine.execFHeartbeat f s
  | .fHeartbeatResp f => Sys2Proof.Machine.execFHeartbeatResp f s
  | .fGetStatus f => Sys2Proof.Machine.execFGetStatus f s
  | .fGetStatusResp f => Sys2Proof.Machine.execFGetStatusResp f s
  | .fReadDin f => Sys2Proof.Machine.execFReadDin f s
  | .fReadDinResp f => Sys2Proof.Machine.execFReadDinResp f s
  | .fWriteDout f => Sys2Proof.Machine.execFWriteDout f s
  | .fWriteDoutResp f => Sys2Proof.Machine.execFWriteDoutResp f s
  | .fReadDout f => Sys2Proof.Machine.execFReadDout f s
  | .fReadAnalog f => Sys2Proof.Machine.execFReadAnalog f s
  | .fReadAnalogResp f => Sys2Proof.Machine.execFReadAnalogResp f s
  | .fErrorResp f => Sys2Proof.Machine.execFErrorResp f s
  | .fUnassignedCmd cmd f => Sys2Proof.Machine.execFUnassignedCmd cmd f s
  | .crc16 bs => Sys2Proof.Machine.execCrc16 bs s
  | .crcInit => Sys2Proof.Machine.execCrcInit s
  | .crcByte b => Sys2Proof.Machine.execCrcByte b s
  | .crcBit d => Sys2Proof.Machine.execCrcBit d s
  | .encode dst src cmd payload => Sys2Proof.Machine.execEncode dst src cmd payload s
  | .decode bs => Sys2Proof.Machine.execDecode bs s
  | .rxByte b now => Sys2Proof.Machine.execRxByte b now s
  | .lineByte b now => Sys2Proof.Machine.execLineByte b now s
  | .txReq dst src cmd payload => Sys2Proof.Machine.execTxReq dst src cmd payload s
  | .txA => Sys2Proof.Machine.execTxA s
  | .txB => Sys2Proof.Machine.execTxB s
  | .txC => Sys2Proof.Machine.execTxC s
  | .txD => Sys2Proof.Machine.execTxD s
  | .txE d => Sys2Proof.Machine.execTxE d s
  | .txF => Sys2Proof.Machine.execTxF s
  | .txG => Sys2Proof.Machine.execTxG s
  | .txH => Sys2Proof.Machine.execTxH s
  | .dispatch p => Sys2Proof.Machine.execDispatch p s
  | .errResp dest e => Sys2Proof.Machine.execErrResp dest e s
  | .crcErrResp src => Sys2Proof.Machine.execCrcErrResp src s
  | .ping p => Sys2Proof.Machine.execPing p s
  | .getVer p => Sys2Proof.Machine.execGetVer p s
  | .heartbeat p => Sys2Proof.Machine.execHeartbeat p s
  | .getStatus p => Sys2Proof.Machine.execGetStatus p s
  | .extHandler id p => Sys2Proof.Machine.execExtHandler id p s
  | .register c h => Sys2Proof.Machine.execRegister c h s
  | .send dst src cmd payload => Sys2Proof.Machine.execSend dst src cmd payload s
  | .tick elapsedMs => Sys2Proof.Machine.execTick elapsedMs s
  | .setHealth v => Sys2Proof.Machine.execSetHealth v s
  | .reset a => Sys2Proof.Machine.execReset a s

end Sys2Proof.Machine
end

