-- ==== Sys2Proof/Machine/Step.lean ====
section
/-! DEFINITION. One step: the next input event, or the next step of the transmit sequence in flight. -/

namespace Sys2Proof.Machine

open Sys2Proof

/-- One step of the node. -/
def step (s : State) : Host.Outcome State Fault Refusal :=
  match fetch s with
  | .run i t => exec i t
  | .answer r => r

/-- The state whose next step runs the instruction with the given first bits: its bytes arrive on the line, at the
present clock reading, before every other input, and none of them overtaken by a response (log 2). Only a step (a) that is due comes first (43 R203). -/
def State.withFetchWord (s : State) (nbits w : Nat) : State :=
  { s with inbox := .wire s.clock (wordBytes nbits w) :: s.inbox, lost := 0 }

end Sys2Proof.Machine
end

