-- ==== Sys2Proof/Safety.lean ====
section
/-! DEFINITION. What a good state is (10_state.md R38 and the canonical forms), and the states that claims speak of: after
a transmission, after a frame has been assembled, and the likeness of two states that differ only where R39 leaves a
value unspecified. -/

namespace Sys2Proof.Machine

open Sys2Proof

/-- 10_state.md R38 (1) to (4): the Frame Assembler between operations. -/
abbrev AssemblerInv (s : State) : Prop :=
  s.idx ≤ 256 ∧ (1 ≤ s.idx → Memory.read s.buf 0 = 0xAA) ∧ (5 ≤ s.idx → s.expLen = Memory.read s.buf 4) ∧
    (5 ≤ s.idx → s.idx < 5 + s.expLen.toNat + 3)

/-- R38 (5) to (7), position by position: the phase fixes the three flags (43 R204 to R211). -/
abbrev DirectionInv (s : State) : Prop :=
  s.rxSuppress = suppressAt s.phase ∧ s.drive = driveAt s.phase ∧ s.txActive = activeAt s.phase

/-- The buffer and the registry are in canonical form. -/
abbrev StorageInv (s : State) : Prop := Memory.wf s.buf = true ∧ Registry.wf s.registry = true

/-- Node Identity is not the broadcast address (R33), and a frame in transmission has 8 to 258 bytes (R31). -/
abbrev IdentityInv (s : State) : Prop :=
  s.myAddr ≠ 0x00 ∧ (s.txActive = true → 8 ≤ s.txFrame.length ∧ s.txFrame.length ≤ 258)

/-- While a transmission is in flight no byte is marked as arrived during an earlier one. -/
abbrev StreamInv (s : State) : Prop := s.txActive = true → s.lost = 0

/-- A good state. -/
abbrev Inv (s : State) : Prop := AssemblerInv s ∧ DirectionInv s ∧ StorageInv s ∧ IdentityInv s ∧ StreamInv s

/-- The listening state (43 R200). -/
abbrev Listening (s : State) : Prop :=
  s.phase = .listen ∧ s.drive = false ∧ s.rxSuppress = false ∧ s.txActive = false

/-- The state after the transmit sequence for frame `f` with checksum register `c`, started in `s` (43 R203 to R212):
the next draw decides what appeared on the line, the result, and how many bytes arrive meanwhile (log 34).
That `tx_frame` keeps the sent frame is log 33. -/
def afterTx (c : Word16) (f : List Byte) (s : State) : State :=
  { dropDraw s with
    crc := c, txFrame := f, lineTx := s.lineTx ++ f, onLine := s.onLine ++ appeared (nextDraw s) f
    inFlight := [], txOutcome := drawResult (nextDraw s), ret := .tx (drawResult (nextDraw s))
    drive := false, rxSuppress := false, txActive := false, phase := .listen, lost := nextDuring s }

/-- The state after TXREQ (43 R203): nothing but the failure for a payload over 250 bytes (41 R152). -/
def afterTxReq (dst src cmd : Byte) (payload : List Byte) (s : State) : State :=
  if 250 < payload.length then { s with ret := .tx .encodeLen }
  else
    let c := crcOf ([dst, src, cmd, BitVec.ofNat 8 payload.length] ++ payload)
    afterTx c ([0xAA, dst, src, cmd, BitVec.ofNat 8 payload.length] ++ payload ++ le16 c ++ [0x55]) s

/-- The state after SEND (44 R246): TXREQ and one count. -/
def afterSend (dst src cmd : Byte) (payload : List Byte) (s : State) : State :=
  let t := afterTxReq dst src cmd payload s
  match t.ret with
  | .tx .ok => { t with txCount := s.txCount + 1 }
  | .tx .txFail => { t with errCount := s.errCount + 1 }
  | _ => t

/-- `m` with `bs` stored from index `i` on. -/
def storeFrom (m : Memory) (i : Nat) (bs : List Byte) : Memory :=
  match bs with
  | [] => m
  | b :: rest => storeFrom (Memory.write m i b) (i + 1) rest

/-- The assembler is in Idle for a byte that arrives at reading `now`: empty, or holding a frame whose idle gap is over
500 ms (42 R172). -/
abbrev FreshAt (now : Word32) (s : State) : Prop := s.idx = 0 ∨ 500 < (now - s.lastTs).toNat

/-- A frame with payload length `n` whose bytes `bs` have all been stored from Idle, and is now handed off: the
assembler is in Idle, the register at `c`, and output `e` has been emitted (42 R180, R182). -/
def afterHandOff (bs : List Byte) (n : Nat) (c : Word16) (e : Emission) (s : State) : State :=
  { s with
    buf := storeFrom s.buf 0 bs, idx := 0, expLen := BitVec.ofNat 8 n, lastTs := s.clock, crc := c
    emitted := s.emitted ++ [e] }

/-- The checksum a frame should carry (30 R97, 41 R151). -/
def frameCrc (c : Byte) (f : FrameFields) : Word16 :=
  crcOf ([f.dst, f.src, c, BitVec.ofNat 8 f.payload.length] ++ f.payload)

/-- Two states that differ at most in what 10_state.md R39 leaves unspecified and no rule reads: `buf` from `idx` on,
`exp_len` while `idx < 5`, `last_ts` while `idx = 0`, and `crc` between computations (R21 to R24). -/
def AlikeButUnread (s t : State) : Prop :=
  t = { s with buf := t.buf, expLen := t.expLen, lastTs := t.lastTs, crc := t.crc } ∧
    (∀ i, i < s.idx → Memory.read t.buf i = Memory.read s.buf i) ∧
    (5 ≤ s.idx → t.expLen = s.expLen) ∧ (0 < s.idx → t.lastTs = s.lastTs)

/-- Two outcomes of the same kind, with states alike or the same reason. -/
def AlikeOutcomes (r q : Res) : Prop :=
  match r, q with
  | .next s, .next t => AlikeButUnread s t
  | .fault f, .fault g => f = g
  | .refused x, .refused y => x = y
  | _, _ => False

/-- `n` steps, stopping at the first fault or refusal. -/
def runSteps (n : Nat) (s : State) : Res :=
  match n with
  | 0 => .next s
  | n + 1 => andThen (step s) (runSteps n)

/-- The built-in or external handler as an operation of its own (44 R239 to R243). -/
def handlerInstr (h : Handler) (p : Packet) : Instr :=
  match h with
  | .ping => .ping p
  | .getVersion => .getVer p
  | .heartbeat => .heartbeat p
  | .getStatus => .getStatus p
  | .external id => .extHandler id p

/-- CRC.INIT and then CRC.BYTE for each byte, as operations (40 R130, R131). -/
def crcRun (bs : List Byte) (s : State) : Res :=
  bs.foldl (fun r b => andThen r (exec (.crcByte b))) (exec .crcInit s)

/-! Which operations may write which state (10_state.md R20, R40). -/

/-- The operations that bring bytes to the assembler: the frames, LINEBYTE, RXBYTE. -/
def delivers : Instr → Bool
  | .fPing _ | .fPingResp _ | .fGetVer _ | .fGetVerResp _ | .fHeartbeat _ | .fHeartbeatResp _ | .fGetStatus _
  | .fGetStatusResp _ | .fReadDin _ | .fReadDinResp _ | .fWriteDout _ | .fWriteDoutResp _ | .fReadDout _
  | .fReadAnalog _ | .fReadAnalogResp _ | .fErrorResp _ | .fUnassignedCmd _ _ | .rxByte _ _ | .lineByte _ _ => true
  | .crc16 _ | .crcInit | .crcByte _ | .crcBit _ | .encode _ _ _ _ | .decode _ | .txReq _ _ _ _ | .txA | .txB | .txC
  | .txD | .txE _ | .txF | .txG | .txH | .dispatch _ | .errResp _ _ | .crcErrResp _ | .ping _ | .getVer _
  | .heartbeat _ | .getStatus _ | .extHandler _ _ | .register _ _ | .send _ _ _ _ | .tick _ | .setHealth _
  | .reset _ => false

/-- The operations that end in a SEND, perhaps: SEND, the responses, the handlers, DISPATCH (44 R246). -/
def usesSend : Instr → Bool
  | .send _ _ _ _ | .dispatch _ | .errResp _ _ | .crcErrResp _ | .ping _ | .getVer _ | .heartbeat _ | .getStatus _
  | .extHandler _ _ => true
  | .fPing _ | .fPingResp _ | .fGetVer _ | .fGetVerResp _ | .fHeartbeat _ | .fHeartbeatResp _ | .fGetStatus _
  | .fGetStatusResp _ | .fReadDin _ | .fReadDinResp _ | .fWriteDout _ | .fWriteDoutResp _ | .fReadDout _
  | .fReadAnalog _ | .fReadAnalogResp _ | .fErrorResp _ | .fUnassignedCmd _ _ | .rxByte _ _ | .lineByte _ _
  | .crc16 _ | .crcInit | .crcByte _ | .crcBit _ | .encode _ _ _ _ | .decode _ | .txReq _ _ _ _ | .txA | .txB | .txC
  | .txD | .txE _ | .txF | .txG | .txH | .register _ _ | .tick _ | .setHealth _ | .reset _ => false

/-- The eight steps of the transmit sequence (43 R204 to R211). -/
def isTxStep : Instr → Bool
  | .txA | .txB | .txC | .txD | .txE _ | .txF | .txG | .txH => true
  | .fPing _ | .fPingResp _ | .fGetVer _ | .fGetVerResp _ | .fHeartbeat _ | .fHeartbeatResp _ | .fGetStatus _
  | .fGetStatusResp _ | .fReadDin _ | .fReadDinResp _ | .fWriteDout _ | .fWriteDoutResp _ | .fReadDout _
  | .fReadAnalog _ | .fReadAnalogResp _ | .fErrorResp _ | .fUnassignedCmd _ _ | .rxByte _ _ | .lineByte _ _
  | .crc16 _ | .crcInit | .crcByte _ | .crcBit _ | .encode _ _ _ _ | .decode _ | .txReq _ _ _ _ | .send _ _ _ _
  | .dispatch _ | .errResp _ _ | .crcErrResp _ | .ping _ | .getVer _ | .heartbeat _ | .getStatus _ | .extHandler _ _
  | .register _ _ | .tick _ | .setHealth _ | .reset _ => false

/-- The operations of the CRC Engine and the Packet Codec. -/
def computesCrc : Instr → Bool
  | .crc16 _ | .crcInit | .crcByte _ | .crcBit _ | .encode _ _ _ _ | .decode _ => true
  | .fPing _ | .fPingResp _ | .fGetVer _ | .fGetVerResp _ | .fHeartbeat _ | .fHeartbeatResp _ | .fGetStatus _
  | .fGetStatusResp _ | .fReadDin _ | .fReadDinResp _ | .fWriteDout _ | .fWriteDoutResp _ | .fReadDout _
  | .fReadAnalog _ | .fReadAnalogResp _ | .fErrorResp _ | .fUnassignedCmd _ _ | .rxByte _ _ | .lineByte _ _
  | .txReq _ _ _ _ | .txA | .txB | .txC | .txD | .txE _ | .txF | .txG | .txH | .send _ _ _ _ | .dispatch _
  | .errResp _ _ | .crcErrResp _ | .ping _ | .getVer _ | .heartbeat _ | .getStatus _ | .extHandler _ _
  | .register _ _ | .tick _ | .setHealth _ | .reset _ => false

/-- TXREQ. -/
def isTxReq (i : Instr) : Prop := ∃ dst src cmd p, i = .txReq dst src cmd p

end Sys2Proof.Machine
end

