-- ==== Sys2Proof/Certificates/Slice0/Obligations.lean ====
section
/-! DEFINITION. The statements for the provers. An equation `exec i s = .next { s with … }` is result, completion and
frame at once: every field it does not name, and every byte of the buffer, is as before. -/

open Sys2Proof Sys2Proof.Machine

/-! ## CRC Engine -/

/-- 40 R131: CRC.INIT sets the register to 0xFFFF, and it begins every computation: what CRC16, ENCODE and DECODE leave in
the register is what CRC.INIT and then CRC.BYTE for each covered byte leave, and it does not depend on the register
they find. -/
def Obligations.CrcInitBeginsEveryComputation : Prop :=
  (∀ s : State, exec .crcInit s = .next { s with crc := 0xFFFF }) ∧
  (∀ (s : State) (bs : List Byte), ∃ c, crcRun bs s = .next { s with crc := c } ∧
    exec (.crc16 bs) s = .next { s with crc := c, ret := .crc c }) ∧
  (∀ (s : State) (dst src cmd : Byte) (p : List Byte), p.length ≤ 250 →
    ∃ c t, crcRun ([dst, src, cmd, BitVec.ofNat 8 p.length] ++ p) s = .next { s with crc := c } ∧
      exec (.encode dst src cmd p) s = .next t ∧ t.crc = c) ∧
  (∀ (s : State) (bs : List Byte), decodeReady bs = true →
    ∃ c t, crcRun ((bs.drop 1).take (4 + (bs.getD 4 0).toNat)) s = .next { s with crc := c } ∧
      exec (.decode bs) s = .next t ∧ t.crc = c) ∧
  (∀ (s : State) (c : Word16) (bs : List Byte), exec (.crc16 bs) { s with crc := c } = exec (.crc16 bs) s) ∧
  (∀ (s : State) (c : Word16) (dst src cmd : Byte) (p : List Byte), p.length ≤ 250 →
    exec (.encode dst src cmd p) { s with crc := c } = exec (.encode dst src cmd p) s) ∧
  (∀ (s : State) (c : Word16) (bs : List Byte), decodeReady bs = true →
    exec (.decode bs) { s with crc := c } = exec (.decode bs) s)

/-- CRC.BYTE: the byte into the low eight bits, then eight iterations; CRC.BIT: the bit-serial form (the reading of
92 D4, log 19). -/
def Obligations.CrcByteAndBitUpdateTheRegister : Prop :=
  (∀ (s : State) (b : Byte),
    let it : Word16 → Word16 := fun c => if c.getLsbD 0 then (c >>> 1) ^^^ 0xA001 else c >>> 1
    exec (.crcByte b) s =
      .next { s with crc := it (it (it (it (it (it (it (it (s.crc ^^^ b.setWidth 16)))))))) }) ∧
  (∀ (s : State) (d : Bool),
    exec (.crcBit d) s =
      .next { s with crc := if s.crc.getLsbD 0 = d then s.crc >>> 1 else (s.crc >>> 1) ^^^ 0xA001 })

/-- The equality of 40 R133, which the spec marks as derived: eight CRC.BIT, fed bit 0 first, are one CRC.BYTE. -/
def Obligations.EightCrcBitsAreOneCrcByte : Prop :=
  ∀ (s : State) (b : Byte),
    andThen (exec (.crcBit (b.getLsbD 0)) s) (fun s =>
      andThen (exec (.crcBit (b.getLsbD 1)) s) (fun s =>
        andThen (exec (.crcBit (b.getLsbD 2)) s) (fun s =>
          andThen (exec (.crcBit (b.getLsbD 3)) s) (fun s =>
            andThen (exec (.crcBit (b.getLsbD 4)) s) (fun s =>
              andThen (exec (.crcBit (b.getLsbD 5)) s) (fun s =>
                andThen (exec (.crcBit (b.getLsbD 6)) s) (fun s => exec (.crcBit (b.getLsbD 7)) s)))))))
      = exec (.crcByte b) s

/-- CRC16 is CRC.INIT and then CRC.BYTE for each byte in order, and returns the register (40 R130; the properties (1) and
(2) of R134, of which the spec marks (2) as following from the definition). -/
def Obligations.CrcSixteenRunsOverEveryByte : Prop :=
  (∀ (s : State) (bs : List Byte), ∃ c : Word16,
    exec (.crc16 bs) s = .next { s with crc := c, ret := .crc c } ∧ crcRun bs s = .next { s with crc := c }) ∧
  (∀ (s : State) (bs cs : List Byte), ∃ c : Word16, crcRun bs s = .next { s with crc := c } ∧
    cs.foldl (fun r b => andThen r (exec (.crcByte b))) (.next { s with crc := c }) = crcRun (bs ++ cs) s) ∧
  (∀ s : State, exec (.crc16 []) s = .next { s with crc := 0xFFFF, ret := .crc 0xFFFF })

/-- The residue, 40 R134 (4), which the spec marks as derived: bytes followed by their checksum, low byte first, have
checksum zero. -/
def Obligations.CrcResidueIsZero : Prop :=
  ∀ bs : List Byte, crcOf (bs ++ [(crcOf bs).extractLsb' 0 8, (crcOf bs).extractLsb' 8 8]) = 0

/-- The two bijections 41 R159 names in its derivation: one CRC.BYTE loses neither the register nor the byte. -/
def Obligations.CrcByteLosesNothing : Prop :=
  (∀ (b : Byte) (c d : Word16), crcStep c b = crcStep d b → c = d) ∧
  (∀ (c : Word16) (a b : Byte), crcStep c a = crcStep c b → a = b)

/-! ## Packet Codec -/

/-- 41 R151: ENCODE returns the frame, field by field, or the failure for more than 250 payload bytes. That the failure
changes no state is the spec's decision D20, and so is no part of what this statement cites. -/
def Obligations.EncodeBuildsTheFrame : Prop :=
  ∀ (s : State) (dst src cmd : Byte) (p : List Byte),
    let body := [dst, src, cmd, BitVec.ofNat 8 p.length] ++ p
    let c := crcOf body
    (p.length ≤ 250 →
      exec (.encode dst src cmd p) s = .next { s with
        crc := c
        ret := .frame ([0xAA] ++ body ++ [c.extractLsb' 0 8, c.extractLsb' 8 8] ++ [0x55]) }) ∧
    (250 < p.length → ∃ t, exec (.encode dst src cmd p) s = .next t ∧ t.ret = .encodeFailure)

/-- X_ENCODE_LEN, the spec's decision D20: an over-long payload changes no state, whether it comes to ENCODE, TXREQ or
SEND; only the caller is told. -/
def Obligations.OverlongPayloadChangesNothing : Prop :=
  ∀ (s : State) (dst src cmd : Byte) (p : List Byte), 250 < p.length →
    exec (.encode dst src cmd p) s = .next { s with ret := .encodeFailure } ∧
    (s.txActive = false →
      exec (.txReq dst src cmd p) s = .next { s with ret := .tx .encodeLen } ∧
      exec (.send dst src cmd p) s = .next { s with ret := .tx .encodeLen })

/-- 41 R155, R156: DECODE takes the fields by position, compares the two 16-bit checksums for equality, and reports the
packet or the source address. -/
def Obligations.DecodeExtractsAndCompares : Prop :=
  ∀ (s : State) (bs : List Byte),
    let n := (bs.getD 4 0).toNat
    let payload := (bs.drop 5).take n
    let rx : Word16 := (bs.getD (5 + n) 0).setWidth 16 ||| ((bs.getD (6 + n) 0).setWidth 16 <<< 8)
    let sum := crcOf ([bs.getD 1 0, bs.getD 2 0, bs.getD 3 0, bs.getD 4 0] ++ payload)
    8 ≤ bs.length → 5 + n + 3 ≤ bs.length →
      (sum = rx → exec (.decode bs) s = .next { s with
        crc := sum, ret := .packet ⟨bs.getD 1 0, bs.getD 2 0, bs.getD 3 0, payload, rx⟩ }) ∧
      (sum ≠ rx → exec (.decode bs) s = .next { s with crc := sum, ret := .checksumMismatch (bs.getD 2 0) })

/-- 41 R154: DECODE of a buffer shorter than its precondition is refused, and of no other. -/
def Obligations.DecodeOfShortBufferIsRefused : Prop :=
  ∀ (s : State) (bs : List Byte),
    exec (.decode bs) s = .refused .decodeShort ↔ (bs.length < 8 ∨ bs.length < 5 + (bs.getD 4 0).toNat + 3)

/-- 41 R158: what ENCODE returns, DECODE gives back, every field and the checksum, from any two states. -/
def Obligations.DecodeOfEncodeRoundTrip : Prop :=
  ∀ (s u : State) (dst src cmd : Byte) (p : List Byte), p.length ≤ 250 →
    ∃ t f v, exec (.encode dst src cmd p) s = .next t ∧ t.ret = .frame f ∧
      exec (.decode f) u = .next v ∧
      v.ret = .packet ⟨dst, src, cmd, p, crcOf ([dst, src, cmd, BitVec.ofNat 8 p.length] ++ p)⟩

/-- What DECODE does not look at (41 R157, the spec's decision D10): the two marker bytes and every byte after the
frame. -/
def Obligations.DecodeIgnoresMarkersAndExcess : Prop :=
  ∀ (s : State) (bs extra : List Byte) (x y : Byte), decodeReady bs = true →
    exec (.decode ((bs.set 0 x).set (7 + (bs.getD 4 0).toNat) y ++ extra)) s = exec (.decode bs) s

/-- Error detection (41 R159, which the spec marks as derived): one changed byte at offsets 1 to `6 + n` other than the
length makes DECODE report a mismatch, with whatever byte now stands at offset 2. -/
def Obligations.SingleByteErrorIsDetected : Prop :=
  ∀ (s : State) (dst src cmd : Byte) (p : List Byte) (k : Nat) (x : Byte), p.length ≤ 250 →
    let body := [dst, src, cmd, BitVec.ofNat 8 p.length] ++ p
    let f := [0xAA] ++ body ++ [(crcOf body).extractLsb' 0 8, (crcOf body).extractLsb' 8 8] ++ [0x55]
    1 ≤ k → k ≤ 6 + p.length → k ≠ 4 → x ≠ f.getD k 0 →
      ∃ t, exec (.decode (f.set k x)) s = .next t ∧ t.ret = .checksumMismatch ((f.set k x).getD 2 0)

/-! ## Frames as instructions -/

/-- Every well-formed FRAME instruction, with every value of its operands, is read back from its bytes, whatever bytes
follow (the layout of 30 R90, R97, R99, R110). -/
def Obligations.DecodeReadsBackEveryFrame : Prop :=
  ∀ (i : Instr) (bs rest : List Byte), wellFormed i = true → encode i = some bs → decode (bs ++ rest) = .ok (i, rest)

/-- What the decoder reads is a well-formed FRAME instruction whose bytes stand at the head of its input: no bit is
ignored, and no two frames share their bytes. -/
def Obligations.DecodeReadsOnlyEncodings : Prop :=
  ∀ (i : Instr) (bs rest : List Byte), decode bs = .ok (i, rest) →
    wellFormed i = true ∧ ∃ e, encode i = some e ∧ bs = e ++ rest

/-- A few frames written out from 30 R90 and R100 and the source's own examples: what they decode to, and two refusals. -/
def Obligations.WrittenOutFramesDecode : Prop :=
  decode [0xAA, 0x02, 0x10, 0x01, 0x00, 0x01, 0xC9, 0x55] = .ok (.fPing ⟨0x02, 0x10, [], 0xC901, 0x55⟩, []) ∧
  decode [0xAA, 0x10, 0x02, 0xFF, 0x02, 0x03, 0x02, 0x6B, 0xAE, 0x55] =
    .ok (.fErrorResp ⟨0x10, 0x02, [0x03, 0x02], 0xAE6B, 0x55⟩, []) ∧
  decode [0xAA, 0x02, 0x10, 0x99, 0x00, 0x6A, 0x09, 0x55] =
    .ok (.fUnassignedCmd 0x99 ⟨0x02, 0x10, [], 0x096A, 0x55⟩, []) ∧
  decode [0xAA, 0x01, 0x10, 0x30, 0x03, 0xAA, 0x55, 0x00, 0x56, 0x60, 0x55] =
    .ok (.fWriteDout ⟨0x01, 0x10, [0xAA, 0x55, 0x00], 0x6056, 0x55⟩, []) ∧
  decode [0x55, 0x02, 0x10, 0x01, 0x00, 0x01, 0xC9, 0x55] = .error .noStartMarker ∧
  decode [0xAA, 0x02, 0x10, 0x01, 0x01, 0x01, 0xC9, 0x55] = .error .truncated

/-- A step runs the decoded instruction: the frame at the head of the arriving bytes, else their first byte as a
LINEBYTE, or the operation called; with no input, the step of the sequence that is due, else nothing. Step (a) comes
before every input. Arriving bytes that a response, performed as one transition, has overtaken are deleted from the
stream and reach nothing (43 R216, 70 R321; which they are is a draw, log 34). A call during a sequence runs only if it is
one of those of log 13 (LINEBYTE and TICK by 43 R216, SETHEALTH by D28, the steps, a second request), and any other,
RESET included, is refused. How inputs are queued is the model's choice (log 1, log 2), and so is the input that opens a
request in steps (log 11). -/
def Obligations.StepRunsTheFetchedInstruction : Prop :=
  ∀ s : State,
    (s.phase = .a → step s = exec .txA { s with inbox := dropCallA s.inbox }) ∧
    (s.phase ≠ .a →
      (∀ t bs rest, (s.inbox = .wire t bs :: rest ∨ ∃ b, bs = [b] ∧ s.inbox = .call (.lineByte b t) :: rest) →
        (overtaken s = true → step s =
          .next { s with clock := t, lost := s.lost - bs.length, inbox := putBack t (bs.drop s.lost) rest }) ∧
        (overtaken s = false →
          (∀ i tail, decode bs = .ok (i, tail) →
            step s = exec i { s with clock := t, inbox := putBack t tail rest }) ∧
          (∀ b tail e, bs = b :: tail → decode bs = .error e →
            step s = exec (.lineByte b t) { s with clock := t, inbox := putBack t tail rest }))) ∧
      (∀ i rest, s.inbox = .call i :: rest → (∀ b t, i ≠ .lineByte b t) →
        ((s.txActive = false ∨ allowedDuringTransmit i = true) →
          step s = exec i { s with inbox := rest, lost := lostAfterCall i s }) ∧
        (s.txActive = true → allowedDuringTransmit i = false → step s = .refused .insideTransmit)) ∧
      (∀ c dst src cmd p rest, s.inbox = .openTx c dst src cmd p :: rest →
        step s = openRequest c dst src cmd p { s with inbox := rest, lost := 0 }) ∧
      (∀ i t, s.inbox = [] → dueStep s = some (i, t) → step s = exec i t) ∧
      (s.inbox = [] → s.phase = .listen → step s = .next s))

/-! ## Frame Assembler -/

/-- X_IDLE_TIMEOUT (42 R172; that nothing is counted is the spec's decision D5, the modulus D3): a byte more than 500 ms
after the last one meets Idle, whatever was held and however full the buffer was (60 R283). -/
def Obligations.IdleTimeoutActsBeforeTheByte : Prop :=
  (∀ (s : State) (b : Byte) (now : Word32), 0 < s.idx → 500 < (now - s.lastTs).toNat →
    exec (.rxByte b now) s = exec (.rxByte b now) { s with idx := 0 }) ∧
  (∀ (s : State) (now : Word32), s.idx = 256 → 500 < (now - s.lastTs).toNat →
    exec (.rxByte 0xAA now) s =
      .next { s with buf := Memory.write s.buf 0 0xAA, idx := 1, lastTs := now })

/-- 42 R174: in Idle any byte but the start marker is discarded; only the timestamp moves. -/
def Obligations.IdleDiscardsOtherBytes : Prop :=
  ∀ (s : State) (b : Byte) (now : Word32), s.idx = 0 → b ≠ 0xAA →
    exec (.rxByte b now) s = .next { s with lastTs := now }

/-- 42 R175: in Idle the start marker is stored at index 0, and nothing else happens. -/
def Obligations.StartMarkerOpensAFrame : Prop :=
  ∀ (s : State) (now : Word32), s.idx = 0 →
    exec (.rxByte 0xAA now) s =
      .next { s with buf := Memory.write s.buf 0 0xAA, idx := 1, lastTs := now } ∧
    (Memory.wf s.buf = true → Memory.read (Memory.write s.buf 0 0xAA) 0 = 0xAA) ∧
    (∀ a, a ≠ 0 → Memory.read (Memory.write s.buf 0 0xAA) a = Memory.read s.buf a)

/-- 42 R177, R178: every further byte, whatever its value, is appended at the fill index, and the fifth is latched as the
expected length; as long as the frame is not complete with it (R179), that is all. That the sum which decides
completeness does not wrap is the spec's decision D8 (log 22); from a length of 249 on the statement rests on it. -/
def Obligations.EveryFurtherByteIsAppended : Prop :=
  ∀ (s : State) (b : Byte) (now : Word32), Memory.wf s.buf = true → 1 ≤ s.idx → s.idx ≤ 255 →
    (now - s.lastTs).toNat ≤ 500 →
    let len : Byte := if s.idx = 4 then b else s.expLen
    ¬ (8 ≤ s.idx + 1 ∧ 5 + len.toNat + 3 ≤ s.idx + 1) →
      exec (.rxByte b now) s = .next { s with
        buf := Memory.write s.buf s.idx b, idx := s.idx + 1, expLen := len, lastTs := now } ∧
      Memory.read (Memory.write s.buf s.idx b) s.idx = b ∧
      (∀ a, a ≠ s.idx → Memory.read (Memory.write s.buf s.idx b) a = Memory.read s.buf a)

/-- X_OVERFLOW (42 R176; that the byte itself is lost even if it is a start marker is the spec's decision D6). -/
def Obligations.FullBufferOverflows : Prop :=
  ∀ (s : State) (b : Byte) (now : Word32), s.idx = 256 → (now - s.lastTs).toNat ≤ 500 →
    exec (.rxByte b now) s = .next { s with idx := 0, errCount := s.errCount + 1, lastTs := now }

/-- X_BAD_END, 42 R181: a complete frame whose last byte is not the end marker is discarded, counted, and not answered. -/
def Obligations.BadEndMarkerDiscardsTheFrame : Prop :=
  ∀ (s : State) (b : Byte) (now : Word32), 1 ≤ s.idx → s.idx ≤ 255 → (now - s.lastTs).toNat ≤ 500 →
    8 ≤ s.idx + 1 → 5 + s.expLen.toNat + 3 ≤ s.idx + 1 → b ≠ 0x55 → Memory.wf s.buf = true →
      exec (.rxByte b now) s = .next { s with
        buf := Memory.write s.buf s.idx b, idx := 0, errCount := s.errCount + 1, lastTs := now }

/-- A complete frame with a good end marker (42 R180, R182, R183; the order is the spec's decision D9): the accumulated
bytes are decoded, the assembler is in Idle, the output is emitted, and its consumer runs in the same invocation,
which with nothing in flight always answers. -/
def Obligations.GoodEndMarkerHandsTheFrameOver : Prop :=
  ∀ (s : State) (now : Word32), 1 ≤ s.idx → s.idx ≤ 255 → (now - s.lastTs).toNat ≤ 500 →
    8 ≤ s.idx + 1 → 5 + s.expLen.toNat + 3 ≤ s.idx + 1 → Memory.wf s.buf = true →
    let buf := Memory.write s.buf s.idx 0x55
    let frame := (List.range (s.idx + 1)).map (Memory.read buf)
    let held : State := { s with buf := buf, idx := 0, lastTs := now, crc := computedCrc frame }
    (∀ p, packetDecode frame = .valid p →
      exec (.rxByte 0x55 now) s = exec (.dispatch p) { held with emitted := s.emitted ++ [.frameValid p] }) ∧
    (∀ src, packetDecode frame = .checksumMismatch src →
      exec (.rxByte 0x55 now) s =
        exec (.crcErrResp src) { held with emitted := s.emitted ++ [.frameCrcError src] }) ∧
    (s.txActive = false → ∃ t, exec (.rxByte 0x55 now) s = .next t ∧ t.idx = 0)

/-- Robustness (42 R186, which the spec marks as derived): from every state, RXBYTE never indexes the buffer outside 0 to
255 and leaves a fill index of at most 256; with nothing in flight it always answers. -/
def Obligations.RxByteNeverOverrunsTheBuffer : Prop :=
  ∀ (s : State) (b : Byte) (now : Word32),
    (∀ f, exec (.rxByte b now) s ≠ .fault f) ∧
    (∀ t, exec (.rxByte b now) s = .next t → t.idx ≤ 256) ∧
    (s.txActive = false → ∃ t, exec (.rxByte b now) s = .next t)

/-- 42 R187, which the spec marks as derived: with an expected length of 249 or more no frame is ever handed over, so
nothing is emitted and nothing is sent; a byte within 500 ms keeps the length or ends the attempt. -/
def Obligations.LengthOver248NeverCompletes : Prop :=
  ∀ (s t : State) (b : Byte) (now : Word32), 5 ≤ s.idx → s.idx ≤ 256 → 249 ≤ s.expLen.toNat →
    exec (.rxByte b now) s = .next t →
      t.emitted = s.emitted ∧ t.lineTx = s.lineTx ∧ t.rxCount = s.rxCount ∧ t.txCount = s.txCount ∧
      (t.expLen = s.expLen ∧ t.idx = s.idx + 1 ∨ t.idx = 0 ∨ t.idx = 1)

/-- RXBYTE stores at most at one index: the one where the arriving byte goes (10 R22, R25, 20 R60). Every other byte of
the buffer reads as before, and so does every byte of the buffer over LINEBYTE while its gate is closed. -/
def Obligations.BufferIsWrittenOnlyAtTheFillIndex : Prop :=
  (∀ (s t : State) (b : Byte) (now : Word32), exec (.rxByte b now) s = .next t →
    ∀ a, a ≠ (arrive now s).idx → Memory.read t.buf a = Memory.read s.buf a) ∧
  (∀ (s t : State) (b : Byte) (now : Word32), exec (.lineByte b now) s = .next t →
    ∀ a, a ≠ (arrive now s).idx ∨ s.rxSuppress = true → Memory.read t.buf a = Memory.read s.buf a)

/-! ## Bus Direction Controller -/

/-- 43 R202, self-echo suppression: while the node drives the line, an arriving byte changes nothing, and neither does any
arriving frame, well-formed or not. -/
def Obligations.BytesAreDroppedWhileDriving : Prop :=
  ∀ s : State, s.drive = true →
    (∀ b now, exec (.lineByte b now) s = .next s) ∧
    (∀ i bs, encode i = some bs → exec i s = .next s)

/-- The receive gate (43 R201; that either flag closes it is the spec's decision D35): open, a LINEBYTE is an RXBYTE, and
with nothing in flight it always answers; closed by `rx_suppress` alone, the byte is dropped too. -/
def Obligations.LineByteReachesTheAssemblerWhenListening : Prop :=
  ∀ (s : State) (b : Byte) (now : Word32),
    (s.drive = false → s.rxSuppress = false →
      exec (.lineByte b now) s = exec (.rxByte b now) s ∧
      (s.txActive = false → ∃ t, exec (.lineByte b now) s = .next t ∧ t.idx ≤ 256)) ∧
    (s.rxSuppress = true → exec (.lineByte b now) s = .next s)

/-- TXREQ (43 R203 to R212, with the spec's decisions D19, D20): the whole sequence as one transition. The line gets the
encoded frame, the draw decides the result and what appeared, and the controller listens again; the bytes that arrived
meanwhile, as many as the draw says, are marked to be deleted from the input stream (R216, log 34). That the sent frame
stays in `tx_frame`, which is dead then (10 R31, 43 R211), is the model's choice (log 33). -/
def Obligations.TxReqRunsTheWholeSequence : Prop :=
  ∀ (s : State) (dst src cmd : Byte) (p : List Byte), s.txActive = false → p.length ≤ 250 →
    let c := crcOf ([dst, src, cmd, BitVec.ofNat 8 p.length] ++ p)
    let f := [0xAA, dst, src, cmd, BitVec.ofNat 8 p.length] ++ p ++ [c.extractLsb' 0 8, c.extractLsb' 8 8, 0x55]
    exec (.txReq dst src cmd p) s = .next { dropDraw s with
      crc := c, txFrame := f, lineTx := s.lineTx ++ f, onLine := s.onLine ++ appeared (nextDraw s) f
      inFlight := [], txOutcome := drawResult (nextDraw s), ret := .tx (drawResult (nextDraw s))
      drive := false, rxSuppress := false, txActive := false, phase := .listen, lost := nextDuring s }

/-- X_REENTRANT_TX (43 R213, the spec's decision D18; 93 U1, U7): while a transmission is in flight TXREQ, SEND, a request
opened in steps, ERRRESP, CRCERRRESP, the four built-in handlers, an external handler that replies, and DISPATCH of an
addressed packet whose handler (or the error response) would send, are refused. (RXBYTE leads there through DISPATCH and
CRCERRRESP: GoodEndMarkerHandsTheFrameOver.) An external handler that does not reply (its reply is free, log 10) requests
nothing and runs. -/
def Obligations.SecondRequestIsRefused : Prop :=
  ∀ s : State, s.txActive = true →
    (∀ dst src cmd p, exec (.txReq dst src cmd p) s = .refused .reentrantTx ∧
      exec (.send dst src cmd p) s = .refused .reentrantTx) ∧
    (∀ c dst src cmd p rest, s.phase ≠ .a → s.inbox = .openTx c dst src cmd p :: rest →
      step s = .refused .reentrantTx) ∧
    (∀ p, exec (.ping p) s = .refused .reentrantTx ∧ exec (.getVer p) s = .refused .reentrantTx ∧
      exec (.heartbeat p) s = .refused .reentrantTx ∧ exec (.getStatus p) s = .refused .reentrantTx) ∧
    (∀ dst e, exec (.errResp dst e) s = .refused .reentrantTx) ∧
    (∀ src, exec (.crcErrResp src) s = .refused .reentrantTx) ∧
    (∀ id p, exec (.extHandler id p) s =
      if (Config.extReply id p s.freeCtr).isSome then .refused .reentrantTx
      else .next { s with freeCtr := s.freeCtr + 1 }) ∧
    (∀ p : Packet, (p.dst = s.myAddr ∨ p.dst = 0x00) →
      (∀ h ∈ [Handler.ping, .getVersion, .heartbeat, .getStatus], Registry.find s.registry p.cmd.toNat = some h →
        exec (.dispatch p) s = .refused .reentrantTx) ∧
      (Registry.find s.registry p.cmd.toNat = none → exec (.dispatch p) s = .refused .reentrantTx) ∧
      (∀ id, Registry.find s.registry p.cmd.toNat = some (.external id) → exec (.dispatch p) s =
        if (Config.extReply id p s.freeCtr).isSome then .refused .reentrantTx
        else .next { s with rxCount := s.rxCount + 1, freeCtr := s.freeCtr + 1 }))

/-- 43 R204, R205, R207, R210: steps (a), (b), (d) and (g) in their turn. From step (a) on, as long as `rx_suppress` is
set, every LINEBYTE is dropped; step (d) writes the whole frame to the line in order. (`inFlight` is the model's own
field for what the transport then holds, log 14. That `tx_frame` keeps the frame after step (d) is log 33.) -/
def Obligations.SuppressDriveWriteRelease : Prop :=
  (∀ s : State, s.phase = .a →
    exec .txA s = .next { s with rxSuppress := true, phase := .b }) ∧
  (∀ (s : State) (b : Byte) (now : Word32), s.rxSuppress = true → exec (.lineByte b now) s = .next s) ∧
  (∀ s : State, s.phase = .b → exec .txB s = .next { s with drive := true, phase := .c }) ∧
  (∀ s : State, s.phase = .d →
    exec .txD s = .next { s with lineTx := s.lineTx ++ s.txFrame, inFlight := s.txFrame, phase := .e }) ∧
  (∀ s : State, s.phase = .g → exec .txG s = .next { s with drive := false, phase := .h })

/-- Steps (c), (e) and (f) in their turn (43 R206, R208, R209; the waits have no number, decision D17; what a failure
leaves on the line is open, 93 U4): the waits move the phase only; step (e) records the outcome, on `ok` with every
byte on the line, on a failure with at most as many bytes as the frame has. -/
def Obligations.WaitAndCompletionSteps : Prop :=
  (∀ s : State, s.phase = .c → exec .txC s = .next { s with phase := .d }) ∧
  (∀ s : State, s.phase = .f → exec .txF s = .next { s with phase := .g }) ∧
  (∀ s : State, s.phase = .e →
    exec (.txE .ok) s = .next { s with
      onLine := s.onLine ++ s.inFlight, inFlight := [], txOutcome := .ok, phase := .f }) ∧
  (∀ (s : State) (k : Nat) (x : Option Byte), s.phase = .e → ∃ sent,
    exec (.txE (.failure k x)) s = .next { s with
      onLine := s.onLine ++ sent, inFlight := [], txOutcome := .txFail, phase := .f } ∧
    sent.length = min k s.inFlight.length ∧
    (∀ j, j + 1 < sent.length → sent.getD j 0 = s.inFlight.getD j 0) ∧
    (x = none → sent = s.inFlight.take k))

/-- Step (h) in its turn ends suppression and the request; the next LINEBYTE reaches the assembler, whose own state the
step did not touch (43 R211). For a request kept in steps (the model's input `openTx`, log 11) the outcome of step (e)
goes to the caller here (R203, R212): to TXREQ, or to SEND, which counts it (44 R246). -/
def Obligations.ReenableStepRestoresListening : Prop :=
  ∀ s : State, s.phase = .h → s.drive = false →
    let t : State := { s with rxSuppress := false, txActive := false, phase := .listen }
    let u : State := { t with caller := none, ret := .tx s.txOutcome }
    (s.caller = none → exec .txH s = .next t) ∧
    (s.caller = some .txReq → exec .txH s = .next u) ∧
    (s.caller = some .send → s.txOutcome = .ok → exec .txH s = .next { u with txCount := s.txCount + 1 }) ∧
    (s.caller = some .send → s.txOutcome = .txFail → exec .txH s = .next { u with errCount := s.errCount + 1 }) ∧
    ∃ v, exec .txH s = .next v ∧ Listening v ∧ v.idx = s.idx ∧ v.buf = s.buf ∧ v.expLen = s.expLen ∧
      v.lastTs = s.lastTs ∧ ∀ b now, exec (.lineByte b now) v = exec (.rxByte b now) v

/-- A step of the sequence out of its turn is refused and changes nothing (10 R30, 20 R72; that it has no meaning there is
the model's inference, log 12). -/
def Obligations.StepsOutOfTurnAreRefused : Prop :=
  ∀ s : State,
    (s.phase ≠ .a → exec .txA s = .refused .txStepOutOfTurn) ∧ (s.phase ≠ .b → exec .txB s = .refused .txStepOutOfTurn) ∧
    (s.phase ≠ .c → exec .txC s = .refused .txStepOutOfTurn) ∧ (s.phase ≠ .d → exec .txD s = .refused .txStepOutOfTurn) ∧
    (∀ d, s.phase ≠ .e → exec (.txE d) s = .refused .txStepOutOfTurn) ∧
    (s.phase ≠ .f → exec .txF s = .refused .txStepOutOfTurn) ∧ (s.phase ≠ .g → exec .txG s = .refused .txStepOutOfTurn) ∧
    (s.phase ≠ .h → exec .txH s = .refused .txStepOutOfTurn)

/-- 43 R216, which the spec marks as derived: a request whose steps are kept apart ends, after its acceptance and eight
steps, in the state the one transition gives, for TXREQ and for SEND, whatever the payload and the draw. Only the mark for
bytes that arrive meanwhile differs: kept in steps, those are inputs between the steps (log 34). -/
def Obligations.StepByStepEqualsOneTransition : Prop :=
  ∀ (s : State) (dst src cmd : Byte) (p : List Byte), Listening s → s.caller = none → s.inbox = [] →
    runSteps 9 { s with inbox := [.openTx .send dst src cmd p] } =
      andThen (exec (.send dst src cmd p) s) (fun t => .next { t with lost := 0 }) ∧
    runSteps 9 { s with inbox := [.openTx .txReq dst src cmd p] } =
      andThen (exec (.txReq dst src cmd p) s) (fun t => .next { t with lost := 0 })

/-- SEND (44 R246, with the spec's decisions D19, D20, D21): TXREQ and one count, `tx_count` on ok, `err_count` on a
failure of step (e). -/
def Obligations.SendCountsTheOutcomeOnce : Prop :=
  ∀ (s : State) (dst src cmd : Byte) (p : List Byte), s.txActive = false → p.length ≤ 250 →
    ∃ t, exec (.txReq dst src cmd p) s = .next t ∧
      (nextDraw s = .ok → exec (.send dst src cmd p) s = .next { t with txCount := s.txCount + 1 }) ∧
      (∀ k x, nextDraw s = .failure k x →
        exec (.send dst src cmd p) s = .next { t with errCount := s.errCount + 1 }) ∧
      ∃ u, exec (.send dst src cmd p) s = .next u

/-! ## Command Dispatcher and Node Status Register -/

/-- 44 R232: a packet for neither this node nor broadcast changes nothing at all; any other passes, and with nothing in
flight is counted and answered. -/
def Obligations.FilteredPacketChangesNothing : Prop :=
  ∀ (s : State) (p : Packet),
    (p.dst ≠ s.myAddr → p.dst ≠ 0x00 → exec (.dispatch p) s = .next s) ∧
    ((p.dst = s.myAddr ∨ p.dst = 0x00) → s.txActive = false →
      ∃ t, exec (.dispatch p) s = .next t ∧ t.rxCount = s.rxCount + 1)

/-- 44 R231, R234: a packet that passes is counted, then its handler runs with it, or without one an error response goes
to the sender; nothing else is checked, and it always answers. -/
def Obligations.DispatchCountsThenRunsTheHandler : Prop :=
  ∀ (s : State) (p : Packet), (p.dst = s.myAddr ∨ p.dst = 0x00) →
    let t : State := { s with rxCount := s.rxCount + 1 }
    (∀ h, Registry.find s.registry p.cmd.toNat = some h → exec (.dispatch p) s = exec (handlerInstr h p) t) ∧
    (Registry.find s.registry p.cmd.toNat = none →
      exec (.dispatch p) s = exec (.errResp p.src .invalidCommand) t) ∧
    (s.txActive = false → ∃ u, exec (.dispatch p) s = .next u ∧ u.rxCount = s.rxCount + 1)

/-- X_UNSUPPORTED (44 R235, R250, with the spec's decisions D13 and D31): any code without a handler, a response code too,
is answered with error code 0x03 and this node's address, addressed to the sender.
(`afterSend`: its `tx_frame` and its mark of lost bytes are the model's choice, log 33 and log 34.) -/
def Obligations.UnsupportedCommandIsAnswered : Prop :=
  ∀ (s : State) (p : Packet), (p.dst = s.myAddr ∨ p.dst = 0x00) → s.txActive = false →
    Registry.find s.registry p.cmd.toNat = none →
      exec (.dispatch p) s =
        .next (afterSend p.src s.myAddr 0xFF [0x03, s.myAddr] { s with rxCount := s.rxCount + 1 })

/-- 44 R239: the built-in ping replies with code 0x02 and an empty payload; and the source's scenario: node 0x02 in Idle
receives the ping of master 0x10, emits the ping-response, and both counters move by one. (`afterSend` is the state SEND
leaves; its `tx_frame` and its mark of lost bytes are the model's choice, log 33 and log 34.) -/
def Obligations.PingIsAnswered : Prop :=
  (∀ (s : State) (p : Packet), s.txActive = false →
    exec (.ping p) s = .next (afterSend p.src s.myAddr 0x02 [] s)) ∧
  (∀ s : State, Listening s → s.lost = 0 → s.idx = 0 → Memory.wf s.buf = true → s.myAddr = 0x02 → nextDraw s = .ok →
    Registry.find s.registry 0x01 = some .ping →
    let rq := crcOf [0x02, 0x10, 0x01, 0x00]
    let rs := crcOf [0x10, 0x02, 0x02, 0x00]
    ∃ t, exec (.fPing ⟨0x02, 0x10, [], rq, 0x55⟩) s = .next t ∧
      t.lineTx = s.lineTx ++ [0xAA, 0x10, 0x02, 0x02, 0x00, rs.extractLsb' 0 8, rs.extractLsb' 8 8, 0x55] ∧
      t.rxCount = s.rxCount + 1 ∧ t.txCount = s.txCount + 1 ∧ t.errCount = s.errCount)

/-- 44 R240, R241, R242: the version, heartbeat and status replies, byte by byte, with the values when the handler runs.
(`afterSend` is the state SEND leaves; its `tx_frame` and its mark of lost bytes are the model's choice, log 33 and log
34.) -/
def Obligations.VersionHeartbeatStatusReplies : Prop :=
  ∀ (s : State) (p : Packet), s.txActive = false →
    exec (.getVer p) s = .next (afterSend p.src s.myAddr 0x04
      [s.version.major, s.version.minor, s.version.patch, s.version.build, s.myAddr, 0, 0, 0] s) ∧
    exec (.heartbeat p) s = .next (afterSend p.src s.myAddr 0x06 [s.myAddr, s.health] s) ∧
    exec (.getStatus p) s = .next (afterSend p.src s.myAddr 0x11
      [s.myAddr, s.health,
       s.uptimeS.extractLsb' 0 8, s.uptimeS.extractLsb' 8 8, s.uptimeS.extractLsb' 16 8, s.uptimeS.extractLsb' 24 8,
       s.errCount.extractLsb' 0 8, s.errCount.extractLsb' 8 8, s.errCount.extractLsb' 16 8,
       s.errCount.extractLsb' 24 8,
       s.rxCount.extractLsb' 0 8, s.rxCount.extractLsb' 8 8, s.rxCount.extractLsb' 16 8, s.rxCount.extractLsb' 24 8,
       s.txCount.extractLsb' 0 8, s.txCount.extractLsb' 8 8] s)

/-- ERRRESP and CRCERRRESP (44 R236, R237, with the spec's decisions D11, D12, D13): the error response is one SEND of
code 0xFF with the error's number and this node's address; a checksum error is answered with number 0x01 to the
frame's source byte, and neither the receive nor, on ok, the error count moves.
(`afterSend`: its `tx_frame` and its mark of lost bytes are the model's choice, log 33 and log 34.) -/
def Obligations.ErrorResponsesNameCodeAndNode : Prop :=
  ∀ s : State, s.txActive = false →
    (∀ (dst : Byte) (e : ErrCode), exec (.errResp dst e) s =
      .next (afterSend dst s.myAddr 0xFF [errNumber e, s.myAddr] s)) ∧
    (∀ src : Byte, ∃ t, exec (.crcErrResp src) s = .next t ∧
      t = afterSend src s.myAddr 0xFF [0x01, s.myAddr] s ∧ t.rxCount = s.rxCount ∧
      (nextDraw s = .ok → t.errCount = s.errCount ∧ t.txCount = s.txCount + 1))

/-- EXTHANDLER (44 R243, R245, 30 R93): zero or one SEND from this node, as the free function of the packet and of the
collaborator's state says, whatever it says (log 10).
(`afterSend`: its `tx_frame` and its mark of lost bytes are the model's choice, log 33 and log 34.) -/
def Obligations.ExternalHandlerSendsAtMostOnce : Prop :=
  ∀ (s : State) (id : Nat) (p : Packet), s.txActive = false →
    let u : State := { s with freeCtr := s.freeCtr + 1 }
    (Config.extReply id p s.freeCtr = none → exec (.extHandler id p) s = .next u) ∧
    (∀ r, Config.extReply id p s.freeCtr = some r →
      exec (.extHandler id p) s = .next (afterSend r.dst s.myAddr r.cmd r.payload u)) ∧
    ∃ t, exec (.extHandler id p) s = .next t

/-- 44 R244: REGISTER writes one entry, the last registration for a code wins, a built-in can be replaced, and nothing else
changes. -/
def Obligations.LastRegistrationWins : Prop :=
  ∀ (s : State) (c : Byte) (h : Handler), ∃ t, exec (.register c h) s = .next t ∧
    t = { s with registry := t.registry } ∧
    ∀ d : Byte, Registry.find t.registry d.toNat = if d = c then some h else Registry.find s.registry d.toNat

/-- TICK and SETHEALTH (44 R247, R248, with the spec's decisions D16 and D15): whole seconds modulo 2^32, any byte, and
nothing else. -/
def Obligations.TickAndSetHealthWriteOneField : Prop :=
  (∀ (s : State) (ms : Nat), ∃ t, exec (.tick ms) s = .next t ∧ t = { s with uptimeS := t.uptimeS } ∧
    t.uptimeS.toNat = (ms / 1000) % 2 ^ 32) ∧
  (∀ (s : State) (v : Byte), exec (.setHealth v) s = .next { s with health := v })

/-! ## Reset -/

/-- RESET (70 R310, 10 R39, with the spec's decisions D14, D15, D25, D26, D27): the values R39 gives, the registry with the
built-ins (R34) and then the node's own handlers, the last one for a code winning, an order that is the model's choice
(log 6); nothing is said of what R39 leaves unspecified. With MY_ADDR = 0x00 it is refused. The inputs and the clock are
outside the node (log 27). `lost` stands in no row of R39: that it is cleared is the model's choice (log 14, log 27). -/
def Obligations.ResetGivesEveryValueOfTheTable : Prop :=
  (∀ (s : State) (a : BootParams), a.myAddr ≠ 0x00 → ∃ t, exec (.reset a) s = .next t ∧
    Listening t ∧ t.lost = 0 ∧ t.idx = 0 ∧ t.txFrame = [] ∧ t.rxCount = 0 ∧ t.txCount = 0 ∧ t.errCount = 0 ∧ t.uptimeS = 0 ∧
    t.health = 100 ∧ t.myAddr = a.myAddr ∧ t.version = a.version ∧
    (∀ c : Byte, Registry.find t.registry c.toNat =
      (([((0x01 : Byte), Handler.ping), (0x03, .getVersion), (0x05, .heartbeat), (0x10, .getStatus)] ++
        a.registryInit).reverse.find? (fun x => x.1 = c)).map (fun x => x.2)) ∧
    t.inbox = s.inbox ∧ t.draws = s.draws ∧ t.clock = s.clock ∧ t.emitted = s.emitted ∧ t.lineTx = s.lineTx) ∧
  (∀ (s : State) (a : BootParams), a.myAddr = 0x00 → exec (.reset a) s = .refused .broadcastIdentity)

/-- The state the model starts from has the values 10 R39 gives (health and the zero counters by the spec's decisions D15
and D14); MY_ADDR, which R39 leaves to an argument, is only said not to be the broadcast address (log 5). `lost` stands in
no row of R39: its value 0 is the model's own choice (log 14), and so is it that nothing replaces a built-in (log 6). -/
def Obligations.StartStateHasTheTablesValues : Prop :=
  Listening State.reset ∧ State.reset.lost = 0 ∧ State.reset.idx = 0 ∧ State.reset.txFrame = [] ∧ State.reset.rxCount = 0 ∧
  State.reset.txCount = 0 ∧ State.reset.errCount = 0 ∧ State.reset.uptimeS = 0 ∧ State.reset.health = 100 ∧
  State.reset.myAddr ≠ 0x00 ∧
  Registry.find State.reset.registry 0x01 = some .ping ∧ Registry.find State.reset.registry 0x03 = some .getVersion ∧
  Registry.find State.reset.registry 0x05 = some .heartbeat ∧ Registry.find State.reset.registry 0x10 = some .getStatus

/-! ## A frame received whole -/

/-- Every FRAME instruction (F.PING to F.UNASSIGNED_CMD, all seventeen): a frame of at most 248 payload bytes with a good
checksum and end marker, arriving while the node listens in Idle or after the idle gap, is dispatched exactly once as
the packet it carries, and the node answers (42 R171, R180, R188, 41 R155; decisions D3, D4, D9). -/
def Obligations.GoodFrameIsDispatchedOnce : Prop :=
  ∀ (i : Instr) (c : Byte) (f : FrameFields) (s : State), encode i = some (frameBytes c f) →
    s.drive = false → s.rxSuppress = false → s.txActive = false → Memory.wf s.buf = true → FreshAt s.clock s →
    s.lost = 0 →
    f.payload.length ≤ 248 → f.fin = 0x55 → f.crc = frameCrc c f →
    let p : Packet := ⟨f.dst, f.src, c, f.payload, f.crc⟩
    let u := afterHandOff (frameBytes c f) f.payload.length f.crc (.frameValid p) s
    exec i s = exec (.dispatch p) u ∧
    ∃ t, exec i s = .next t ∧ t.idx = 0 ∧ t.buf = u.buf ∧ t.emitted = s.emitted ++ [.frameValid p]

/-- The same frame with a wrong checksum (41 R155, 44 R237, 60 R283; decisions D11, D12) is answered with an error response,
number 0x01 (30 R102, decision D13), whatever its destination; with a wrong end marker (42 R181) it is discarded and counted.
(`afterSend`: its `tx_frame` and its mark of lost bytes are the model's choice, log 33 and log 34.) -/
def Obligations.BadFrameIsAnsweredOrCounted : Prop :=
  ∀ (i : Instr) (c : Byte) (f : FrameFields) (s : State), encode i = some (frameBytes c f) →
    s.drive = false → s.rxSuppress = false → s.txActive = false → Memory.wf s.buf = true → FreshAt s.clock s →
    s.lost = 0 →
    f.payload.length ≤ 248 →
    (f.fin = 0x55 → f.crc ≠ frameCrc c f → ∃ t, exec i s = .next t ∧
      t = afterSend f.src s.myAddr 0xFF [0x01, s.myAddr]
        (afterHandOff (frameBytes c f) f.payload.length (frameCrc c f) (.frameCrcError f.src) s)) ∧
    (f.fin ≠ 0x55 → exec i s = .next { s with
      buf := storeFrom s.buf 0 (frameBytes c f), idx := 0, expLen := BitVec.ofNat 8 f.payload.length
      lastTs := s.clock, errCount := s.errCount + 1 })

/-- 42 R187 and hazard 70 R320, which the spec marks as derived: a frame with 249 to 255 payload bytes is never received:
one overflow is counted, and nothing is emitted or sent. -/
def Obligations.OverlongFrameOverflows : Prop :=
  ∀ (i : Instr) (c : Byte) (f : FrameFields) (s : State), encode i = some (frameBytes c f) →
    s.drive = false → s.rxSuppress = false → s.txActive = false → Memory.wf s.buf = true → FreshAt s.clock s →
    s.lost = 0 →
    249 ≤ f.payload.length → f.payload.length ≤ 255 →
      ∃ t, exec i s = .next t ∧ t.errCount = s.errCount + 1 ∧ t.emitted = s.emitted ∧ t.lineTx = s.lineTx ∧
        t.rxCount = s.rxCount ∧ t.txCount = s.txCount

/-- A good frame for another node has no observable effect (44 R232 and the source's property S6; that the assembler has
returned to Idle before is decision D9): no response, no counter, no registry or status change. -/
def Obligations.FrameForAnotherNodeIsSilent : Prop :=
  ∀ (i : Instr) (c : Byte) (f : FrameFields) (s : State), encode i = some (frameBytes c f) →
    s.drive = false → s.rxSuppress = false → s.txActive = false → Memory.wf s.buf = true → FreshAt s.clock s →
    s.lost = 0 →
    f.payload.length ≤ 248 → f.fin = 0x55 → f.crc = frameCrc c f → f.dst ≠ s.myAddr → f.dst ≠ 0x00 →
      exec i s = .next (afterHandOff (frameBytes c f) f.payload.length f.crc
        (.frameValid ⟨f.dst, f.src, c, f.payload, f.crc⟩) s)

/-- Whatever bytes a frame carries and whatever the assembler holds, a listening node takes it, answers, and listens again
(42 R186, 60 R285: all error paths return to the receiving state). Bytes of it that arrived during the node's last
response are lost, and only the others are delivered; a frame that arrived wholly during it changes nothing (70 R321, 43
R216; how many they are is a draw, log 34). -/
def Obligations.ListeningNodeTakesEveryFrame : Prop :=
  ∀ (i : Instr) (bs : List Byte) (s : State), encode i = some bs → Listening s →
    (∃ t, exec i s = .next t ∧ Listening t ∧ t.myAddr = s.myAddr ∧ t.registry = s.registry) ∧
    (s.lost ≤ bs.length → exec i s = deliver (bs.drop s.lost) s.clock { s with lost := 0 }) ∧
    (bs.length ≤ s.lost → exec i s = .next { s with lost := s.lost - bs.length })

/-! ## The whole machine -/

/-- Every step keeps a good state good: the seven invariants of 10 R38, the canonical forms, a legal identity, a
transmission frame of legal length, and no byte marked as lost to an earlier response while a transmission is in flight. -/
def Obligations.EveryStepKeepsTheInvariant : Prop :=
  ∀ s t : State, Inv s → step s = .next t → Inv t

/-- The state the model starts from is good (10 R38, R39; that its identity is not the broadcast address is log 5). -/
def Obligations.StartStateMeetsTheInvariant : Prop := Inv State.reset

/-- Ownership (10 R20, R33, R40), for every field of R20's table. No operation but RESET changes the identity or the
version, none the inputs or the clock; only REGISTER the registry, SETHEALTH the health, TICK the uptime; only what
delivers bytes the assembler's state; only the CRC Engine, the codec, and what sends or delivers the register `crc`;
only the steps and what sends or delivers the direction controller's state and the line; only DISPATCH and what delivers
the receive count; only SEND (itself, in a response, or ending at step (h)) and what delivers the transmit and error
counts. -/
def Obligations.EachStateHasItsOwnWriter : Prop :=
  ∀ (i : Instr) (s t : State), exec i s = .next t → (∀ a, i ≠ .reset a) →
    t.myAddr = s.myAddr ∧ t.version = s.version ∧ t.inbox = s.inbox ∧ t.clock = s.clock ∧
    ((∀ c h, i ≠ .register c h) → t.registry = s.registry) ∧
    ((∀ v, i ≠ .setHealth v) → t.health = s.health) ∧
    ((∀ ms, i ≠ .tick ms) → t.uptimeS = s.uptimeS) ∧
    (delivers i = false →
      t.buf = s.buf ∧ t.idx = s.idx ∧ t.expLen = s.expLen ∧ t.lastTs = s.lastTs ∧ t.emitted = s.emitted ∧
      (usesSend i = false → ¬ isTxReq i → computesCrc i = false → t.crc = s.crc) ∧
      (usesSend i = false → ¬ isTxReq i → isTxStep i = false →
        t.drive = s.drive ∧ t.rxSuppress = s.rxSuppress ∧ t.txActive = s.txActive ∧ t.phase = s.phase ∧
        t.txFrame = s.txFrame ∧ t.txOutcome = s.txOutcome ∧ t.inFlight = s.inFlight ∧ t.lineTx = s.lineTx ∧
        t.onLine = s.onLine ∧ t.lost = s.lost) ∧
      ((∀ p, i ≠ .dispatch p) → t.rxCount = s.rxCount) ∧
      (usesSend i = false → i ≠ .txH → t.txCount = s.txCount ∧ t.errCount = s.errCount))

/-- "Never reset except at boot" (10 R32, 44 R249): an operation other than RESET leaves each of the three counters or adds
one to it, modulo 2^32. (A frame is many operations.) -/
def Obligations.CountersOnlyCountUp : Prop :=
  ∀ (i : Instr) (s t : State), exec i s = .next t → (∀ a, i ≠ .reset a) → encode i = none →
    (t.rxCount = s.rxCount ∨ t.rxCount = s.rxCount + 1) ∧ (t.txCount = s.txCount ∨ t.txCount = s.txCount + 1) ∧
    (t.errCount = s.errCount ∨ t.errCount = s.errCount + 1)

/-- With nothing in flight an operation answers a next state, except DECODE of a short buffer, RESET to the broadcast
address, and a step of a sequence that is not running (60 R270, R278, 93 U1, U2, U12; the last by log 12). -/
def Obligations.OnlyContractViolationsStop : Prop :=
  ∀ (i : Instr) (s : State), s.txActive = false →
    (∃ t, exec i s = .next t) ∨ (∃ bs, i = .decode bs ∧ decodeReady bs = false) ∨
    (∃ a, i = .reset a ∧ a.myAddr = 0x00) ∨ i = .txA ∨ i = .txB ∨ i = .txC ∨ i = .txD ∨ (∃ d, i = .txE d) ∨ i = .txF ∨
    i = .txG ∨ i = .txH

/-- From a good state bytes arriving on the line never stop the node, also in the middle of a transmission: the reentrant
request cannot arise from reception (43 R213, 42 R186). -/
def Obligations.ReceptionNeverStopsTheNode : Prop :=
  ∀ (s : State) (t : Word32) (bs : List Byte) (rest : List Input), Inv s → s.inbox = .wire t bs :: rest →
    ∃ u, step s = .next u

/-- What 10 R39 leaves unspecified is never read (R21 to R24, 70 R312): two states that differ only there stay alike over
every step, with the same outputs, counters and results, or stop for the same reason. -/
def Obligations.UnspecifiedStateIsNeverRead : Prop :=
  ∀ s t : State, Memory.wf s.buf = true → Memory.wf t.buf = true → AlikeButUnread s t → AlikeOutcomes (step s) (step t)
end

