-- ==== Sys2Proof/Laws/State.lean ====
section
/-! SUPPORT. For each named update of the state, one lemma per field, true by unfolding; so that no proof unfolds a record
update. -/

namespace Sys2Proof.Machine

open Sys2Proof

/-! The fields of `txStepA`. -/

@[simp] theorem txStepA_crc (s : State) : (txStepA s).crc = s.crc := rfl
@[simp] theorem txStepA_buf (s : State) : (txStepA s).buf = s.buf := rfl
@[simp] theorem txStepA_idx (s : State) : (txStepA s).idx = s.idx := rfl
@[simp] theorem txStepA_expLen (s : State) : (txStepA s).expLen = s.expLen := rfl
@[simp] theorem txStepA_lastTs (s : State) : (txStepA s).lastTs = s.lastTs := rfl
@[simp] theorem txStepA_drive (s : State) : (txStepA s).drive = s.drive := rfl
@[simp] theorem txStepA_rxSuppress (s : State) : (txStepA s).rxSuppress = true := rfl
@[simp] theorem txStepA_txActive (s : State) : (txStepA s).txActive = s.txActive := rfl
@[simp] theorem txStepA_phase (s : State) : (txStepA s).phase = .b := rfl
@[simp] theorem txStepA_txFrame (s : State) : (txStepA s).txFrame = s.txFrame := rfl
@[simp] theorem txStepA_rxCount (s : State) : (txStepA s).rxCount = s.rxCount := rfl
@[simp] theorem txStepA_txCount (s : State) : (txStepA s).txCount = s.txCount := rfl
@[simp] theorem txStepA_errCount (s : State) : (txStepA s).errCount = s.errCount := rfl
@[simp] theorem txStepA_uptimeS (s : State) : (txStepA s).uptimeS = s.uptimeS := rfl
@[simp] theorem txStepA_health (s : State) : (txStepA s).health = s.health := rfl
@[simp] theorem txStepA_myAddr (s : State) : (txStepA s).myAddr = s.myAddr := rfl
@[simp] theorem txStepA_registry (s : State) : (txStepA s).registry = s.registry := rfl
@[simp] theorem txStepA_version (s : State) : (txStepA s).version = s.version := rfl
@[simp] theorem txStepA_txOutcome (s : State) : (txStepA s).txOutcome = s.txOutcome := rfl
@[simp] theorem txStepA_inFlight (s : State) : (txStepA s).inFlight = s.inFlight := rfl
@[simp] theorem txStepA_clock (s : State) : (txStepA s).clock = s.clock := rfl
@[simp] theorem txStepA_caller (s : State) : (txStepA s).caller = s.caller := rfl
@[simp] theorem txStepA_inbox (s : State) : (txStepA s).inbox = s.inbox := rfl
@[simp] theorem txStepA_draws (s : State) : (txStepA s).draws = s.draws := rfl
@[simp] theorem txStepA_lost (s : State) : (txStepA s).lost = s.lost := rfl
@[simp] theorem txStepA_freeCtr (s : State) : (txStepA s).freeCtr = s.freeCtr := rfl
@[simp] theorem txStepA_lineTx (s : State) : (txStepA s).lineTx = s.lineTx := rfl
@[simp] theorem txStepA_onLine (s : State) : (txStepA s).onLine = s.onLine := rfl
@[simp] theorem txStepA_emitted (s : State) : (txStepA s).emitted = s.emitted := rfl
@[simp] theorem txStepA_ret (s : State) : (txStepA s).ret = s.ret := rfl

/-! The fields of `txStepB`. -/

@[simp] theorem txStepB_crc (s : State) : (txStepB s).crc = s.crc := rfl
@[simp] theorem txStepB_buf (s : State) : (txStepB s).buf = s.buf := rfl
@[simp] theorem txStepB_idx (s : State) : (txStepB s).idx = s.idx := rfl
@[simp] theorem txStepB_expLen (s : State) : (txStepB s).expLen = s.expLen := rfl
@[simp] theorem txStepB_lastTs (s : State) : (txStepB s).lastTs = s.lastTs := rfl
@[simp] theorem txStepB_drive (s : State) : (txStepB s).drive = true := rfl
@[simp] theorem txStepB_rxSuppress (s : State) : (txStepB s).rxSuppress = s.rxSuppress := rfl
@[simp] theorem txStepB_txActive (s : State) : (txStepB s).txActive = s.txActive := rfl
@[simp] theorem txStepB_phase (s : State) : (txStepB s).phase = .c := rfl
@[simp] theorem txStepB_txFrame (s : State) : (txStepB s).txFrame = s.txFrame := rfl
@[simp] theorem txStepB_rxCount (s : State) : (txStepB s).rxCount = s.rxCount := rfl
@[simp] theorem txStepB_txCount (s : State) : (txStepB s).txCount = s.txCount := rfl
@[simp] theorem txStepB_errCount (s : State) : (txStepB s).errCount = s.errCount := rfl
@[simp] theorem txStepB_uptimeS (s : State) : (txStepB s).uptimeS = s.uptimeS := rfl
@[simp] theorem txStepB_health (s : State) : (txStepB s).health = s.health := rfl
@[simp] theorem txStepB_myAddr (s : State) : (txStepB s).myAddr = s.myAddr := rfl
@[simp] theorem txStepB_registry (s : State) : (txStepB s).registry = s.registry := rfl
@[simp] theorem txStepB_version (s : State) : (txStepB s).version = s.version := rfl
@[simp] theorem txStepB_txOutcome (s : State) : (txStepB s).txOutcome = s.txOutcome := rfl
@[simp] theorem txStepB_inFlight (s : State) : (txStepB s).inFlight = s.inFlight := rfl
@[simp] theorem txStepB_clock (s : State) : (txStepB s).clock = s.clock := rfl
@[simp] theorem txStepB_caller (s : State) : (txStepB s).caller = s.caller := rfl
@[simp] theorem txStepB_inbox (s : State) : (txStepB s).inbox = s.inbox := rfl
@[simp] theorem txStepB_draws (s : State) : (txStepB s).draws = s.draws := rfl
@[simp] theorem txStepB_lost (s : State) : (txStepB s).lost = s.lost := rfl
@[simp] theorem txStepB_freeCtr (s : State) : (txStepB s).freeCtr = s.freeCtr := rfl
@[simp] theorem txStepB_lineTx (s : State) : (txStepB s).lineTx = s.lineTx := rfl
@[simp] theorem txStepB_onLine (s : State) : (txStepB s).onLine = s.onLine := rfl
@[simp] theorem txStepB_emitted (s : State) : (txStepB s).emitted = s.emitted := rfl
@[simp] theorem txStepB_ret (s : State) : (txStepB s).ret = s.ret := rfl

/-! The fields of `txStepC`. -/

@[simp] theorem txStepC_crc (s : State) : (txStepC s).crc = s.crc := rfl
@[simp] theorem txStepC_buf (s : State) : (txStepC s).buf = s.buf := rfl
@[simp] theorem txStepC_idx (s : State) : (txStepC s).idx = s.idx := rfl
@[simp] theorem txStepC_expLen (s : State) : (txStepC s).expLen = s.expLen := rfl
@[simp] theorem txStepC_lastTs (s : State) : (txStepC s).lastTs = s.lastTs := rfl
@[simp] theorem txStepC_drive (s : State) : (txStepC s).drive = s.drive := rfl
@[simp] theorem txStepC_rxSuppress (s : State) : (txStepC s).rxSuppress = s.rxSuppress := rfl
@[simp] theorem txStepC_txActive (s : State) : (txStepC s).txActive = s.txActive := rfl
@[simp] theorem txStepC_phase (s : State) : (txStepC s).phase = .d := rfl
@[simp] theorem txStepC_txFrame (s : State) : (txStepC s).txFrame = s.txFrame := rfl
@[simp] theorem txStepC_rxCount (s : State) : (txStepC s).rxCount = s.rxCount := rfl
@[simp] theorem txStepC_txCount (s : State) : (txStepC s).txCount = s.txCount := rfl
@[simp] theorem txStepC_errCount (s : State) : (txStepC s).errCount = s.errCount := rfl
@[simp] theorem txStepC_uptimeS (s : State) : (txStepC s).uptimeS = s.uptimeS := rfl
@[simp] theorem txStepC_health (s : State) : (txStepC s).health = s.health := rfl
@[simp] theorem txStepC_myAddr (s : State) : (txStepC s).myAddr = s.myAddr := rfl
@[simp] theorem txStepC_registry (s : State) : (txStepC s).registry = s.registry := rfl
@[simp] theorem txStepC_version (s : State) : (txStepC s).version = s.version := rfl
@[simp] theorem txStepC_txOutcome (s : State) : (txStepC s).txOutcome = s.txOutcome := rfl
@[simp] theorem txStepC_inFlight (s : State) : (txStepC s).inFlight = s.inFlight := rfl
@[simp] theorem txStepC_clock (s : State) : (txStepC s).clock = s.clock := rfl
@[simp] theorem txStepC_caller (s : State) : (txStepC s).caller = s.caller := rfl
@[simp] theorem txStepC_inbox (s : State) : (txStepC s).inbox = s.inbox := rfl
@[simp] theorem txStepC_draws (s : State) : (txStepC s).draws = s.draws := rfl
@[simp] theorem txStepC_lost (s : State) : (txStepC s).lost = s.lost := rfl
@[simp] theorem txStepC_freeCtr (s : State) : (txStepC s).freeCtr = s.freeCtr := rfl
@[simp] theorem txStepC_lineTx (s : State) : (txStepC s).lineTx = s.lineTx := rfl
@[simp] theorem txStepC_onLine (s : State) : (txStepC s).onLine = s.onLine := rfl
@[simp] theorem txStepC_emitted (s : State) : (txStepC s).emitted = s.emitted := rfl
@[simp] theorem txStepC_ret (s : State) : (txStepC s).ret = s.ret := rfl

/-! The fields of `txStepD`. -/

@[simp] theorem txStepD_crc (s : State) : (txStepD s).crc = s.crc := rfl
@[simp] theorem txStepD_buf (s : State) : (txStepD s).buf = s.buf := rfl
@[simp] theorem txStepD_idx (s : State) : (txStepD s).idx = s.idx := rfl
@[simp] theorem txStepD_expLen (s : State) : (txStepD s).expLen = s.expLen := rfl
@[simp] theorem txStepD_lastTs (s : State) : (txStepD s).lastTs = s.lastTs := rfl
@[simp] theorem txStepD_drive (s : State) : (txStepD s).drive = s.drive := rfl
@[simp] theorem txStepD_rxSuppress (s : State) : (txStepD s).rxSuppress = s.rxSuppress := rfl
@[simp] theorem txStepD_txActive (s : State) : (txStepD s).txActive = s.txActive := rfl
@[simp] theorem txStepD_phase (s : State) : (txStepD s).phase = .e := rfl
@[simp] theorem txStepD_txFrame (s : State) : (txStepD s).txFrame = s.txFrame := rfl
@[simp] theorem txStepD_rxCount (s : State) : (txStepD s).rxCount = s.rxCount := rfl
@[simp] theorem txStepD_txCount (s : State) : (txStepD s).txCount = s.txCount := rfl
@[simp] theorem txStepD_errCount (s : State) : (txStepD s).errCount = s.errCount := rfl
@[simp] theorem txStepD_uptimeS (s : State) : (txStepD s).uptimeS = s.uptimeS := rfl
@[simp] theorem txStepD_health (s : State) : (txStepD s).health = s.health := rfl
@[simp] theorem txStepD_myAddr (s : State) : (txStepD s).myAddr = s.myAddr := rfl
@[simp] theorem txStepD_registry (s : State) : (txStepD s).registry = s.registry := rfl
@[simp] theorem txStepD_version (s : State) : (txStepD s).version = s.version := rfl
@[simp] theorem txStepD_txOutcome (s : State) : (txStepD s).txOutcome = s.txOutcome := rfl
@[simp] theorem txStepD_inFlight (s : State) : (txStepD s).inFlight = s.txFrame := rfl
@[simp] theorem txStepD_clock (s : State) : (txStepD s).clock = s.clock := rfl
@[simp] theorem txStepD_caller (s : State) : (txStepD s).caller = s.caller := rfl
@[simp] theorem txStepD_inbox (s : State) : (txStepD s).inbox = s.inbox := rfl
@[simp] theorem txStepD_draws (s : State) : (txStepD s).draws = s.draws := rfl
@[simp] theorem txStepD_lost (s : State) : (txStepD s).lost = s.lost := rfl
@[simp] theorem txStepD_freeCtr (s : State) : (txStepD s).freeCtr = s.freeCtr := rfl
@[simp] theorem txStepD_lineTx (s : State) : (txStepD s).lineTx = s.lineTx ++ s.txFrame := rfl
@[simp] theorem txStepD_onLine (s : State) : (txStepD s).onLine = s.onLine := rfl
@[simp] theorem txStepD_emitted (s : State) : (txStepD s).emitted = s.emitted := rfl
@[simp] theorem txStepD_ret (s : State) : (txStepD s).ret = s.ret := rfl

/-! The fields of `txStepE`. -/

@[simp] theorem txStepE_crc (d : TxDraw) (s : State) : (txStepE d s).crc = s.crc := rfl
@[simp] theorem txStepE_buf (d : TxDraw) (s : State) : (txStepE d s).buf = s.buf := rfl
@[simp] theorem txStepE_idx (d : TxDraw) (s : State) : (txStepE d s).idx = s.idx := rfl
@[simp] theorem txStepE_expLen (d : TxDraw) (s : State) : (txStepE d s).expLen = s.expLen := rfl
@[simp] theorem txStepE_lastTs (d : TxDraw) (s : State) : (txStepE d s).lastTs = s.lastTs := rfl
@[simp] theorem txStepE_drive (d : TxDraw) (s : State) : (txStepE d s).drive = s.drive := rfl
@[simp] theorem txStepE_rxSuppress (d : TxDraw) (s : State) : (txStepE d s).rxSuppress = s.rxSuppress := rfl
@[simp] theorem txStepE_txActive (d : TxDraw) (s : State) : (txStepE d s).txActive = s.txActive := rfl
@[simp] theorem txStepE_phase (d : TxDraw) (s : State) : (txStepE d s).phase = .f := rfl
@[simp] theorem txStepE_txFrame (d : TxDraw) (s : State) : (txStepE d s).txFrame = s.txFrame := rfl
@[simp] theorem txStepE_rxCount (d : TxDraw) (s : State) : (txStepE d s).rxCount = s.rxCount := rfl
@[simp] theorem txStepE_txCount (d : TxDraw) (s : State) : (txStepE d s).txCount = s.txCount := rfl
@[simp] theorem txStepE_errCount (d : TxDraw) (s : State) : (txStepE d s).errCount = s.errCount := rfl
@[simp] theorem txStepE_uptimeS (d : TxDraw) (s : State) : (txStepE d s).uptimeS = s.uptimeS := rfl
@[simp] theorem txStepE_health (d : TxDraw) (s : State) : (txStepE d s).health = s.health := rfl
@[simp] theorem txStepE_myAddr (d : TxDraw) (s : State) : (txStepE d s).myAddr = s.myAddr := rfl
@[simp] theorem txStepE_registry (d : TxDraw) (s : State) : (txStepE d s).registry = s.registry := rfl
@[simp] theorem txStepE_version (d : TxDraw) (s : State) : (txStepE d s).version = s.version := rfl
@[simp] theorem txStepE_txOutcome (d : TxDraw) (s : State) : (txStepE d s).txOutcome = drawResult d := rfl
@[simp] theorem txStepE_inFlight (d : TxDraw) (s : State) : (txStepE d s).inFlight = [] := rfl
@[simp] theorem txStepE_clock (d : TxDraw) (s : State) : (txStepE d s).clock = s.clock := rfl
@[simp] theorem txStepE_caller (d : TxDraw) (s : State) : (txStepE d s).caller = s.caller := rfl
@[simp] theorem txStepE_inbox (d : TxDraw) (s : State) : (txStepE d s).inbox = s.inbox := rfl
@[simp] theorem txStepE_draws (d : TxDraw) (s : State) : (txStepE d s).draws = s.draws := rfl
@[simp] theorem txStepE_lost (d : TxDraw) (s : State) : (txStepE d s).lost = s.lost := rfl
@[simp] theorem txStepE_freeCtr (d : TxDraw) (s : State) : (txStepE d s).freeCtr = s.freeCtr := rfl
@[simp] theorem txStepE_lineTx (d : TxDraw) (s : State) : (txStepE d s).lineTx = s.lineTx := rfl
@[simp] theorem txStepE_onLine (d : TxDraw) (s : State) : (txStepE d s).onLine = s.onLine ++ appeared d s.inFlight := rfl
@[simp] theorem txStepE_emitted (d : TxDraw) (s : State) : (txStepE d s).emitted = s.emitted := rfl
@[simp] theorem txStepE_ret (d : TxDraw) (s : State) : (txStepE d s).ret = s.ret := rfl

/-! The fields of `txStepF`. -/

@[simp] theorem txStepF_crc (s : State) : (txStepF s).crc = s.crc := rfl
@[simp] theorem txStepF_buf (s : State) : (txStepF s).buf = s.buf := rfl
@[simp] theorem txStepF_idx (s : State) : (txStepF s).idx = s.idx := rfl
@[simp] theorem txStepF_expLen (s : State) : (txStepF s).expLen = s.expLen := rfl
@[simp] theorem txStepF_lastTs (s : State) : (txStepF s).lastTs = s.lastTs := rfl
@[simp] theorem txStepF_drive (s : State) : (txStepF s).drive = s.drive := rfl
@[simp] theorem txStepF_rxSuppress (s : State) : (txStepF s).rxSuppress = s.rxSuppress := rfl
@[simp] theorem txStepF_txActive (s : State) : (txStepF s).txActive = s.txActive := rfl
@[simp] theorem txStepF_phase (s : State) : (txStepF s).phase = .g := rfl
@[simp] theorem txStepF_txFrame (s : State) : (txStepF s).txFrame = s.txFrame := rfl
@[simp] theorem txStepF_rxCount (s : State) : (txStepF s).rxCount = s.rxCount := rfl
@[simp] theorem txStepF_txCount (s : State) : (txStepF s).txCount = s.txCount := rfl
@[simp] theorem txStepF_errCount (s : State) : (txStepF s).errCount = s.errCount := rfl
@[simp] theorem txStepF_uptimeS (s : State) : (txStepF s).uptimeS = s.uptimeS := rfl
@[simp] theorem txStepF_health (s : State) : (txStepF s).health = s.health := rfl
@[simp] theorem txStepF_myAddr (s : State) : (txStepF s).myAddr = s.myAddr := rfl
@[simp] theorem txStepF_registry (s : State) : (txStepF s).registry = s.registry := rfl
@[simp] theorem txStepF_version (s : State) : (txStepF s).version = s.version := rfl
@[simp] theorem txStepF_txOutcome (s : State) : (txStepF s).txOutcome = s.txOutcome := rfl
@[simp] theorem txStepF_inFlight (s : State) : (txStepF s).inFlight = s.inFlight := rfl
@[simp] theorem txStepF_clock (s : State) : (txStepF s).clock = s.clock := rfl
@[simp] theorem txStepF_caller (s : State) : (txStepF s).caller = s.caller := rfl
@[simp] theorem txStepF_inbox (s : State) : (txStepF s).inbox = s.inbox := rfl
@[simp] theorem txStepF_draws (s : State) : (txStepF s).draws = s.draws := rfl
@[simp] theorem txStepF_lost (s : State) : (txStepF s).lost = s.lost := rfl
@[simp] theorem txStepF_freeCtr (s : State) : (txStepF s).freeCtr = s.freeCtr := rfl
@[simp] theorem txStepF_lineTx (s : State) : (txStepF s).lineTx = s.lineTx := rfl
@[simp] theorem txStepF_onLine (s : State) : (txStepF s).onLine = s.onLine := rfl
@[simp] theorem txStepF_emitted (s : State) : (txStepF s).emitted = s.emitted := rfl
@[simp] theorem txStepF_ret (s : State) : (txStepF s).ret = s.ret := rfl

/-! The fields of `txStepG`. -/

@[simp] theorem txStepG_crc (s : State) : (txStepG s).crc = s.crc := rfl
@[simp] theorem txStepG_buf (s : State) : (txStepG s).buf = s.buf := rfl
@[simp] theorem txStepG_idx (s : State) : (txStepG s).idx = s.idx := rfl
@[simp] theorem txStepG_expLen (s : State) : (txStepG s).expLen = s.expLen := rfl
@[simp] theorem txStepG_lastTs (s : State) : (txStepG s).lastTs = s.lastTs := rfl
@[simp] theorem txStepG_drive (s : State) : (txStepG s).drive = false := rfl
@[simp] theorem txStepG_rxSuppress (s : State) : (txStepG s).rxSuppress = s.rxSuppress := rfl
@[simp] theorem txStepG_txActive (s : State) : (txStepG s).txActive = s.txActive := rfl
@[simp] theorem txStepG_phase (s : State) : (txStepG s).phase = .h := rfl
@[simp] theorem txStepG_txFrame (s : State) : (txStepG s).txFrame = s.txFrame := rfl
@[simp] theorem txStepG_rxCount (s : State) : (txStepG s).rxCount = s.rxCount := rfl
@[simp] theorem txStepG_txCount (s : State) : (txStepG s).txCount = s.txCount := rfl
@[simp] theorem txStepG_errCount (s : State) : (txStepG s).errCount = s.errCount := rfl
@[simp] theorem txStepG_uptimeS (s : State) : (txStepG s).uptimeS = s.uptimeS := rfl
@[simp] theorem txStepG_health (s : State) : (txStepG s).health = s.health := rfl
@[simp] theorem txStepG_myAddr (s : State) : (txStepG s).myAddr = s.myAddr := rfl
@[simp] theorem txStepG_registry (s : State) : (txStepG s).registry = s.registry := rfl
@[simp] theorem txStepG_version (s : State) : (txStepG s).version = s.version := rfl
@[simp] theorem txStepG_txOutcome (s : State) : (txStepG s).txOutcome = s.txOutcome := rfl
@[simp] theorem txStepG_inFlight (s : State) : (txStepG s).inFlight = s.inFlight := rfl
@[simp] theorem txStepG_clock (s : State) : (txStepG s).clock = s.clock := rfl
@[simp] theorem txStepG_caller (s : State) : (txStepG s).caller = s.caller := rfl
@[simp] theorem txStepG_inbox (s : State) : (txStepG s).inbox = s.inbox := rfl
@[simp] theorem txStepG_draws (s : State) : (txStepG s).draws = s.draws := rfl
@[simp] theorem txStepG_lost (s : State) : (txStepG s).lost = s.lost := rfl
@[simp] theorem txStepG_freeCtr (s : State) : (txStepG s).freeCtr = s.freeCtr := rfl
@[simp] theorem txStepG_lineTx (s : State) : (txStepG s).lineTx = s.lineTx := rfl
@[simp] theorem txStepG_onLine (s : State) : (txStepG s).onLine = s.onLine := rfl
@[simp] theorem txStepG_emitted (s : State) : (txStepG s).emitted = s.emitted := rfl
@[simp] theorem txStepG_ret (s : State) : (txStepG s).ret = s.ret := rfl

/-! The fields of `txStepH`. -/

@[simp] theorem txStepH_crc (s : State) : (txStepH s).crc = s.crc := rfl
@[simp] theorem txStepH_buf (s : State) : (txStepH s).buf = s.buf := rfl
@[simp] theorem txStepH_idx (s : State) : (txStepH s).idx = s.idx := rfl
@[simp] theorem txStepH_expLen (s : State) : (txStepH s).expLen = s.expLen := rfl
@[simp] theorem txStepH_lastTs (s : State) : (txStepH s).lastTs = s.lastTs := rfl
@[simp] theorem txStepH_drive (s : State) : (txStepH s).drive = s.drive := rfl
@[simp] theorem txStepH_rxSuppress (s : State) : (txStepH s).rxSuppress = false := rfl
@[simp] theorem txStepH_txActive (s : State) : (txStepH s).txActive = false := rfl
@[simp] theorem txStepH_phase (s : State) : (txStepH s).phase = .listen := rfl
@[simp] theorem txStepH_txFrame (s : State) : (txStepH s).txFrame = s.txFrame := rfl
@[simp] theorem txStepH_rxCount (s : State) : (txStepH s).rxCount = s.rxCount := rfl
@[simp] theorem txStepH_txCount (s : State) : (txStepH s).txCount = s.txCount := rfl
@[simp] theorem txStepH_errCount (s : State) : (txStepH s).errCount = s.errCount := rfl
@[simp] theorem txStepH_uptimeS (s : State) : (txStepH s).uptimeS = s.uptimeS := rfl
@[simp] theorem txStepH_health (s : State) : (txStepH s).health = s.health := rfl
@[simp] theorem txStepH_myAddr (s : State) : (txStepH s).myAddr = s.myAddr := rfl
@[simp] theorem txStepH_registry (s : State) : (txStepH s).registry = s.registry := rfl
@[simp] theorem txStepH_version (s : State) : (txStepH s).version = s.version := rfl
@[simp] theorem txStepH_txOutcome (s : State) : (txStepH s).txOutcome = s.txOutcome := rfl
@[simp] theorem txStepH_inFlight (s : State) : (txStepH s).inFlight = s.inFlight := rfl
@[simp] theorem txStepH_clock (s : State) : (txStepH s).clock = s.clock := rfl
@[simp] theorem txStepH_caller (s : State) : (txStepH s).caller = s.caller := rfl
@[simp] theorem txStepH_inbox (s : State) : (txStepH s).inbox = s.inbox := rfl
@[simp] theorem txStepH_draws (s : State) : (txStepH s).draws = s.draws := rfl
@[simp] theorem txStepH_lost (s : State) : (txStepH s).lost = s.lost := rfl
@[simp] theorem txStepH_freeCtr (s : State) : (txStepH s).freeCtr = s.freeCtr := rfl
@[simp] theorem txStepH_lineTx (s : State) : (txStepH s).lineTx = s.lineTx := rfl
@[simp] theorem txStepH_onLine (s : State) : (txStepH s).onLine = s.onLine := rfl
@[simp] theorem txStepH_emitted (s : State) : (txStepH s).emitted = s.emitted := rfl
@[simp] theorem txStepH_ret (s : State) : (txStepH s).ret = s.ret := rfl

/-! The fields of `txAccept`. -/

@[simp] theorem txAccept_crc (dst src cmd : Byte) (payload f : List Byte) (s : State) : (txAccept dst src cmd payload f s).crc = crcOf (checkedBody dst src cmd payload) := rfl
@[simp] theorem txAccept_buf (dst src cmd : Byte) (payload f : List Byte) (s : State) : (txAccept dst src cmd payload f s).buf = s.buf := rfl
@[simp] theorem txAccept_idx (dst src cmd : Byte) (payload f : List Byte) (s : State) : (txAccept dst src cmd payload f s).idx = s.idx := rfl
@[simp] theorem txAccept_expLen (dst src cmd : Byte) (payload f : List Byte) (s : State) : (txAccept dst src cmd payload f s).expLen = s.expLen := rfl
@[simp] theorem txAccept_lastTs (dst src cmd : Byte) (payload f : List Byte) (s : State) : (txAccept dst src cmd payload f s).lastTs = s.lastTs := rfl
@[simp] theorem txAccept_drive (dst src cmd : Byte) (payload f : List Byte) (s : State) : (txAccept dst src cmd payload f s).drive = s.drive := rfl
@[simp] theorem txAccept_rxSuppress (dst src cmd : Byte) (payload f : List Byte) (s : State) : (txAccept dst src cmd payload f s).rxSuppress = s.rxSuppress := rfl
@[simp] theorem txAccept_txActive (dst src cmd : Byte) (payload f : List Byte) (s : State) : (txAccept dst src cmd payload f s).txActive = true := rfl
@[simp] theorem txAccept_phase (dst src cmd : Byte) (payload f : List Byte) (s : State) : (txAccept dst src cmd payload f s).phase = .a := rfl
@[simp] theorem txAccept_txFrame (dst src cmd : Byte) (payload f : List Byte) (s : State) : (txAccept dst src cmd payload f s).txFrame = f := rfl
@[simp] theorem txAccept_rxCount (dst src cmd : Byte) (payload f : List Byte) (s : State) : (txAccept dst src cmd payload f s).rxCount = s.rxCount := rfl
@[simp] theorem txAccept_txCount (dst src cmd : Byte) (payload f : List Byte) (s : State) : (txAccept dst src cmd payload f s).txCount = s.txCount := rfl
@[simp] theorem txAccept_errCount (dst src cmd : Byte) (payload f : List Byte) (s : State) : (txAccept dst src cmd payload f s).errCount = s.errCount := rfl
@[simp] theorem txAccept_uptimeS (dst src cmd : Byte) (payload f : List Byte) (s : State) : (txAccept dst src cmd payload f s).uptimeS = s.uptimeS := rfl
@[simp] theorem txAccept_health (dst src cmd : Byte) (payload f : List Byte) (s : State) : (txAccept dst src cmd payload f s).health = s.health := rfl
@[simp] theorem txAccept_myAddr (dst src cmd : Byte) (payload f : List Byte) (s : State) : (txAccept dst src cmd payload f s).myAddr = s.myAddr := rfl
@[simp] theorem txAccept_registry (dst src cmd : Byte) (payload f : List Byte) (s : State) : (txAccept dst src cmd payload f s).registry = s.registry := rfl
@[simp] theorem txAccept_version (dst src cmd : Byte) (payload f : List Byte) (s : State) : (txAccept dst src cmd payload f s).version = s.version := rfl
@[simp] theorem txAccept_txOutcome (dst src cmd : Byte) (payload f : List Byte) (s : State) : (txAccept dst src cmd payload f s).txOutcome = s.txOutcome := rfl
@[simp] theorem txAccept_inFlight (dst src cmd : Byte) (payload f : List Byte) (s : State) : (txAccept dst src cmd payload f s).inFlight = s.inFlight := rfl
@[simp] theorem txAccept_clock (dst src cmd : Byte) (payload f : List Byte) (s : State) : (txAccept dst src cmd payload f s).clock = s.clock := rfl
@[simp] theorem txAccept_caller (dst src cmd : Byte) (payload f : List Byte) (s : State) : (txAccept dst src cmd payload f s).caller = s.caller := rfl
@[simp] theorem txAccept_inbox (dst src cmd : Byte) (payload f : List Byte) (s : State) : (txAccept dst src cmd payload f s).inbox = s.inbox := rfl
@[simp] theorem txAccept_draws (dst src cmd : Byte) (payload f : List Byte) (s : State) : (txAccept dst src cmd payload f s).draws = s.draws := rfl
@[simp] theorem txAccept_lost (dst src cmd : Byte) (payload f : List Byte) (s : State) : (txAccept dst src cmd payload f s).lost = s.lost := rfl
@[simp] theorem txAccept_freeCtr (dst src cmd : Byte) (payload f : List Byte) (s : State) : (txAccept dst src cmd payload f s).freeCtr = s.freeCtr := rfl
@[simp] theorem txAccept_lineTx (dst src cmd : Byte) (payload f : List Byte) (s : State) : (txAccept dst src cmd payload f s).lineTx = s.lineTx := rfl
@[simp] theorem txAccept_onLine (dst src cmd : Byte) (payload f : List Byte) (s : State) : (txAccept dst src cmd payload f s).onLine = s.onLine := rfl
@[simp] theorem txAccept_emitted (dst src cmd : Byte) (payload f : List Byte) (s : State) : (txAccept dst src cmd payload f s).emitted = s.emitted := rfl
@[simp] theorem txAccept_ret (dst src cmd : Byte) (payload f : List Byte) (s : State) : (txAccept dst src cmd payload f s).ret = s.ret := rfl

/-! The fields of `txReturn`. -/

@[simp] theorem txReturn_crc (s : State) : (txReturn s).crc = s.crc := rfl
@[simp] theorem txReturn_buf (s : State) : (txReturn s).buf = s.buf := rfl
@[simp] theorem txReturn_idx (s : State) : (txReturn s).idx = s.idx := rfl
@[simp] theorem txReturn_expLen (s : State) : (txReturn s).expLen = s.expLen := rfl
@[simp] theorem txReturn_lastTs (s : State) : (txReturn s).lastTs = s.lastTs := rfl
@[simp] theorem txReturn_drive (s : State) : (txReturn s).drive = s.drive := rfl
@[simp] theorem txReturn_rxSuppress (s : State) : (txReturn s).rxSuppress = s.rxSuppress := rfl
@[simp] theorem txReturn_txActive (s : State) : (txReturn s).txActive = s.txActive := rfl
@[simp] theorem txReturn_phase (s : State) : (txReturn s).phase = s.phase := rfl
@[simp] theorem txReturn_txFrame (s : State) : (txReturn s).txFrame = s.txFrame := rfl
@[simp] theorem txReturn_rxCount (s : State) : (txReturn s).rxCount = s.rxCount := rfl
@[simp] theorem txReturn_txCount (s : State) : (txReturn s).txCount = s.txCount := rfl
@[simp] theorem txReturn_errCount (s : State) : (txReturn s).errCount = s.errCount := rfl
@[simp] theorem txReturn_uptimeS (s : State) : (txReturn s).uptimeS = s.uptimeS := rfl
@[simp] theorem txReturn_health (s : State) : (txReturn s).health = s.health := rfl
@[simp] theorem txReturn_myAddr (s : State) : (txReturn s).myAddr = s.myAddr := rfl
@[simp] theorem txReturn_registry (s : State) : (txReturn s).registry = s.registry := rfl
@[simp] theorem txReturn_version (s : State) : (txReturn s).version = s.version := rfl
@[simp] theorem txReturn_txOutcome (s : State) : (txReturn s).txOutcome = s.txOutcome := rfl
@[simp] theorem txReturn_inFlight (s : State) : (txReturn s).inFlight = s.inFlight := rfl
@[simp] theorem txReturn_clock (s : State) : (txReturn s).clock = s.clock := rfl
@[simp] theorem txReturn_caller (s : State) : (txReturn s).caller = s.caller := rfl
@[simp] theorem txReturn_inbox (s : State) : (txReturn s).inbox = s.inbox := rfl
@[simp] theorem txReturn_draws (s : State) : (txReturn s).draws = s.draws := rfl
@[simp] theorem txReturn_lost (s : State) : (txReturn s).lost = s.lost := rfl
@[simp] theorem txReturn_freeCtr (s : State) : (txReturn s).freeCtr = s.freeCtr := rfl
@[simp] theorem txReturn_lineTx (s : State) : (txReturn s).lineTx = s.lineTx := rfl
@[simp] theorem txReturn_onLine (s : State) : (txReturn s).onLine = s.onLine := rfl
@[simp] theorem txReturn_emitted (s : State) : (txReturn s).emitted = s.emitted := rfl
@[simp] theorem txReturn_ret (s : State) : (txReturn s).ret = .tx s.txOutcome := rfl

/-! The fields of `dropDraw`. -/

@[simp] theorem dropDraw_crc (s : State) : (dropDraw s).crc = s.crc := by unfold dropDraw; split <;> rfl
@[simp] theorem dropDraw_buf (s : State) : (dropDraw s).buf = s.buf := by unfold dropDraw; split <;> rfl
@[simp] theorem dropDraw_idx (s : State) : (dropDraw s).idx = s.idx := by unfold dropDraw; split <;> rfl
@[simp] theorem dropDraw_expLen (s : State) : (dropDraw s).expLen = s.expLen := by unfold dropDraw; split <;> rfl
@[simp] theorem dropDraw_lastTs (s : State) : (dropDraw s).lastTs = s.lastTs := by unfold dropDraw; split <;> rfl
@[simp] theorem dropDraw_drive (s : State) : (dropDraw s).drive = s.drive := by unfold dropDraw; split <;> rfl
@[simp] theorem dropDraw_rxSuppress (s : State) : (dropDraw s).rxSuppress = s.rxSuppress := by unfold dropDraw; split <;> rfl
@[simp] theorem dropDraw_txActive (s : State) : (dropDraw s).txActive = s.txActive := by unfold dropDraw; split <;> rfl
@[simp] theorem dropDraw_phase (s : State) : (dropDraw s).phase = s.phase := by unfold dropDraw; split <;> rfl
@[simp] theorem dropDraw_txFrame (s : State) : (dropDraw s).txFrame = s.txFrame := by unfold dropDraw; split <;> rfl
@[simp] theorem dropDraw_rxCount (s : State) : (dropDraw s).rxCount = s.rxCount := by unfold dropDraw; split <;> rfl
@[simp] theorem dropDraw_txCount (s : State) : (dropDraw s).txCount = s.txCount := by unfold dropDraw; split <;> rfl
@[simp] theorem dropDraw_errCount (s : State) : (dropDraw s).errCount = s.errCount := by unfold dropDraw; split <;> rfl
@[simp] theorem dropDraw_uptimeS (s : State) : (dropDraw s).uptimeS = s.uptimeS := by unfold dropDraw; split <;> rfl
@[simp] theorem dropDraw_health (s : State) : (dropDraw s).health = s.health := by unfold dropDraw; split <;> rfl
@[simp] theorem dropDraw_myAddr (s : State) : (dropDraw s).myAddr = s.myAddr := by unfold dropDraw; split <;> rfl
@[simp] theorem dropDraw_registry (s : State) : (dropDraw s).registry = s.registry := by unfold dropDraw; split <;> rfl
@[simp] theorem dropDraw_version (s : State) : (dropDraw s).version = s.version := by unfold dropDraw; split <;> rfl
@[simp] theorem dropDraw_txOutcome (s : State) : (dropDraw s).txOutcome = s.txOutcome := by unfold dropDraw; split <;> rfl
@[simp] theorem dropDraw_inFlight (s : State) : (dropDraw s).inFlight = s.inFlight := by unfold dropDraw; split <;> rfl
@[simp] theorem dropDraw_clock (s : State) : (dropDraw s).clock = s.clock := by unfold dropDraw; split <;> rfl
@[simp] theorem dropDraw_caller (s : State) : (dropDraw s).caller = s.caller := by unfold dropDraw; split <;> rfl
@[simp] theorem dropDraw_inbox (s : State) : (dropDraw s).inbox = s.inbox := by unfold dropDraw; split <;> rfl
@[simp] theorem dropDraw_lost (s : State) : (dropDraw s).lost = s.lost := by unfold dropDraw; split <;> rfl
@[simp] theorem dropDraw_lineTx (s : State) : (dropDraw s).lineTx = s.lineTx := by unfold dropDraw; split <;> rfl
@[simp] theorem dropDraw_onLine (s : State) : (dropDraw s).onLine = s.onLine := by unfold dropDraw; split <;> rfl
@[simp] theorem dropDraw_emitted (s : State) : (dropDraw s).emitted = s.emitted := by unfold dropDraw; split <;> rfl
@[simp] theorem dropDraw_ret (s : State) : (dropDraw s).ret = s.ret := by unfold dropDraw; split <;> rfl

/-- A supplied draw is used up, and only then is the counter left alone. -/
theorem dropDraw_draws (s : State) : (dropDraw s).draws = s.draws.tail := by
  unfold dropDraw; split <;> simp_all

/-! The fields of `arrive`: only the timestamp, and the index where the idle gap has expired. -/

@[simp] theorem arrive_crc (now : Word32) (s : State) : (arrive now s).crc = s.crc := by unfold arrive; split <;> rfl
@[simp] theorem arrive_buf (now : Word32) (s : State) : (arrive now s).buf = s.buf := by unfold arrive; split <;> rfl
@[simp] theorem arrive_expLen (now : Word32) (s : State) : (arrive now s).expLen = s.expLen := by unfold arrive; split <;> rfl
@[simp] theorem arrive_drive (now : Word32) (s : State) : (arrive now s).drive = s.drive := by unfold arrive; split <;> rfl
@[simp] theorem arrive_rxSuppress (now : Word32) (s : State) : (arrive now s).rxSuppress = s.rxSuppress := by unfold arrive; split <;> rfl
@[simp] theorem arrive_txActive (now : Word32) (s : State) : (arrive now s).txActive = s.txActive := by unfold arrive; split <;> rfl
@[simp] theorem arrive_phase (now : Word32) (s : State) : (arrive now s).phase = s.phase := by unfold arrive; split <;> rfl
@[simp] theorem arrive_txFrame (now : Word32) (s : State) : (arrive now s).txFrame = s.txFrame := by unfold arrive; split <;> rfl
@[simp] theorem arrive_rxCount (now : Word32) (s : State) : (arrive now s).rxCount = s.rxCount := by unfold arrive; split <;> rfl
@[simp] theorem arrive_txCount (now : Word32) (s : State) : (arrive now s).txCount = s.txCount := by unfold arrive; split <;> rfl
@[simp] theorem arrive_errCount (now : Word32) (s : State) : (arrive now s).errCount = s.errCount := by unfold arrive; split <;> rfl
@[simp] theorem arrive_uptimeS (now : Word32) (s : State) : (arrive now s).uptimeS = s.uptimeS := by unfold arrive; split <;> rfl
@[simp] theorem arrive_health (now : Word32) (s : State) : (arrive now s).health = s.health := by unfold arrive; split <;> rfl
@[simp] theorem arrive_myAddr (now : Word32) (s : State) : (arrive now s).myAddr = s.myAddr := by unfold arrive; split <;> rfl
@[simp] theorem arrive_registry (now : Word32) (s : State) : (arrive now s).registry = s.registry := by unfold arrive; split <;> rfl
@[simp] theorem arrive_version (now : Word32) (s : State) : (arrive now s).version = s.version := by unfold arrive; split <;> rfl
@[simp] theorem arrive_txOutcome (now : Word32) (s : State) : (arrive now s).txOutcome = s.txOutcome := by unfold arrive; split <;> rfl
@[simp] theorem arrive_inFlight (now : Word32) (s : State) : (arrive now s).inFlight = s.inFlight := by unfold arrive; split <;> rfl
@[simp] theorem arrive_clock (now : Word32) (s : State) : (arrive now s).clock = s.clock := by unfold arrive; split <;> rfl
@[simp] theorem arrive_caller (now : Word32) (s : State) : (arrive now s).caller = s.caller := by unfold arrive; split <;> rfl
@[simp] theorem arrive_inbox (now : Word32) (s : State) : (arrive now s).inbox = s.inbox := by unfold arrive; split <;> rfl
@[simp] theorem arrive_draws (now : Word32) (s : State) : (arrive now s).draws = s.draws := by unfold arrive; split <;> rfl
@[simp] theorem arrive_lost (now : Word32) (s : State) : (arrive now s).lost = s.lost := by unfold arrive; split <;> rfl
@[simp] theorem arrive_freeCtr (now : Word32) (s : State) : (arrive now s).freeCtr = s.freeCtr := by unfold arrive; split <;> rfl
@[simp] theorem arrive_lineTx (now : Word32) (s : State) : (arrive now s).lineTx = s.lineTx := by unfold arrive; split <;> rfl
@[simp] theorem arrive_onLine (now : Word32) (s : State) : (arrive now s).onLine = s.onLine := by unfold arrive; split <;> rfl
@[simp] theorem arrive_emitted (now : Word32) (s : State) : (arrive now s).emitted = s.emitted := by unfold arrive; split <;> rfl
@[simp] theorem arrive_ret (now : Word32) (s : State) : (arrive now s).ret = s.ret := by unfold arrive; split <;> rfl
@[simp] theorem arrive_lastTs (now : Word32) (s : State) : (arrive now s).lastTs = now := rfl
theorem arrive_idx (now : Word32) (s : State) : (arrive now s).idx = if idleExpired now s then 0 else s.idx := by
  unfold arrive; split <;> rfl

/-! The state changes of the error conditions (60 R270). -/

@[simp] theorem errorChange_badEnd (s : State) :
    errorChange .badEnd s = { s with idx := 0, errCount := s.errCount + 1 } := rfl
@[simp] theorem errorChange_overflow (s : State) :
    errorChange .overflow s = { s with idx := 0, errCount := s.errCount + 1 } := rfl
@[simp] theorem errorChange_idleTimeout (s : State) : errorChange .idleTimeout s = { s with idx := 0 } := rfl
@[simp] theorem errorChange_txFail (s : State) :
    errorChange .txFail s = { s with errCount := s.errCount + 1 } := rfl
@[simp] theorem errorChange_checksum (s : State) : errorChange .checksum s = s := rfl
@[simp] theorem errorChange_unsupported (s : State) : errorChange .unsupported s = s := rfl
@[simp] theorem errorChange_encodeLen (s : State) : errorChange .encodeLen s = s := rfl
@[simp] theorem raise_checksum (s : State) : raise .checksum s = .next s := rfl
@[simp] theorem raise_unsupported (s : State) : raise .unsupported s = .next s := rfl
@[simp] theorem raise_encodeLen (s : State) : raise .encodeLen s = .next s := rfl
@[simp] theorem raise_txFail (s : State) : raise .txFail s = .next { s with errCount := s.errCount + 1 } := rfl
@[simp] theorem raise_reentrantTx (s : State) : raise .reentrantTx s = .refused .reentrantTx := rfl
@[simp] theorem raise_decodeShort (s : State) : raise .decodeShort s = .refused .decodeShort := rfl

/-! Going on from an outcome. -/

@[simp] theorem andThen_next (s : State) (k : State → Res) : andThen (.next s) k = k s := rfl
@[simp] theorem andThen_fault (f : Fault) (k : State → Res) : andThen (.fault f) k = .fault f := rfl
@[simp] theorem andThen_refused (x : Refusal) (k : State → Res) : andThen (.refused x) k = .refused x := rfl

/-- A run of two parts answers a next state only through one. -/
theorem andThen_eq_next {r : Res} {k : State → Res} {t : State} (h : andThen r k = .next t) :
    ∃ u, r = .next u ∧ k u = .next t := by
  cases r with
  | next u => exact ⟨u, rfl, h⟩
  | fault f => simp at h
  | refused x => simp at h

end Sys2Proof.Machine
end

