-- ==== Sys2Proof/Laws/Storage.lean ====
section
/-! SUPPORT. The accumulation buffer and the registry as sorted lists: a read after a write, and that every operation
keeps the canonical form. -/

namespace Sys2Proof.Machine

open Sys2Proof

/-- Every index listed is at least `k`. -/
def Memory.above (k : Nat) (m : Memory) : Prop := ∀ x ∈ m, k < x.1

theorem Memory.read_above {k : Nat} {m : Memory} (h : Memory.above k m) : Memory.read m k = unlistedByte := by
  induction m with
  | nil => rfl
  | cons x m ih =>
    obtain ⟨i, v⟩ := x
    have hi : k < i := h (i, v) (by simp)
    simp only [Memory.read, if_neg (Nat.ne_of_gt hi)]
    exact ih fun y hy => h y (by simp [hy])

theorem Memory.read_cons (i j : Nat) (b : Byte) (m : Memory) (h : Memory.above i m) :
    Memory.read (Memory.cons i b m) j = if j = i then b else Memory.read m j := by
  unfold Memory.cons
  split
  · split
    · next hb hj => subst hj; rw [Memory.read_above h, hb]
    · rfl
  · simp only [Memory.read, eq_comm]

/-- The canonical form, as a proposition. -/
theorem Memory.wf_iff (m : Memory) :
    Memory.wf m = true ↔ m.Pairwise (fun x y => x.1 < y.1) ∧ ∀ x ∈ m, x.1 < 256 ∧ x.2 ≠ unlistedByte := by
  simp only [Memory.wf, Bool.and_eq_true, decide_eq_true_eq, List.all_eq_true, bne_iff_ne]
  rfl

theorem Memory.wf_cons_iff (i : Nat) (v : Byte) (m : Memory) :
    Memory.wf ((i, v) :: m) = true ↔
      Memory.above i m ∧ i < 256 ∧ v ≠ unlistedByte ∧ Memory.wf m = true := by
  simp only [Memory.wf_iff, List.pairwise_cons, Memory.above, List.mem_cons, forall_eq_or_imp]
  tauto

/-- A read after a write: the byte written at its index, the old byte elsewhere. -/
theorem Memory.read_write (m : Memory) (i j : Nat) (b : Byte) (h : Memory.wf m = true) :
    Memory.read (Memory.write m i b) j = if j = i then b else Memory.read m j := by
  induction m with
  | nil => exact Memory.read_cons i j b [] (by simp [Memory.above])
  | cons x m ih =>
    obtain ⟨k, v⟩ := x
    obtain ⟨hk, -, -, hm⟩ := (Memory.wf_cons_iff k v m).1 h
    unfold Memory.write
    split
    · next hlt =>
      refine Memory.read_cons i j b _ ?_
      intro y hy
      rcases List.mem_cons.1 hy with rfl | hy
      · exact hlt
      · exact Nat.lt_trans hlt (hk y hy)
    · split
      · next _ he =>
        subst he
        rw [Memory.read_cons i j b m hk]
        by_cases hj : j = i
        · simp [hj]
        · simp [Memory.read, hj, Ne.symm hj]
      · next hlt hne =>
        simp only [Memory.read, ih hm]
        by_cases hkj : k = j
        · subst hkj; simp [Ne.symm hne]
        · simp [hkj]

/-- A write leaves every other index alone, in any list. -/
theorem Memory.read_write_ne (m : Memory) (i j : Nat) (b : Byte) (h : j ≠ i) :
    Memory.read (Memory.write m i b) j = Memory.read m j := by
  have hc : ∀ l : Memory, Memory.read (Memory.cons i b l) j = Memory.read l j := by
    intro l; unfold Memory.cons; split <;> simp [Memory.read, Ne.symm h]
  induction m with
  | nil => exact hc []
  | cons x m ih =>
    obtain ⟨k, v⟩ := x
    unfold Memory.write
    split
    · exact hc _
    · split
      · next he => subst he; rw [hc]; simp [Memory.read, Ne.symm h]
      · simp [Memory.read, ih]

theorem Memory.above_cons {k i : Nat} {b : Byte} {m : Memory} (hi : k < i) (h : Memory.above k m) :
    Memory.above k (Memory.cons i b m) := by
  unfold Memory.cons
  split
  · exact h
  · intro y hy
    rcases List.mem_cons.1 hy with rfl | hy
    · exact hi
    · exact h y hy

theorem Memory.above_write {k i : Nat} {b : Byte} {m : Memory} (hi : k < i) (h : Memory.above k m) :
    Memory.above k (Memory.write m i b) := by
  induction m with
  | nil => exact Memory.above_cons hi (by simp [Memory.above])
  | cons x m ih =>
    obtain ⟨j, v⟩ := x
    have hj : k < j := h (j, v) (by simp)
    have hm : Memory.above k m := fun y hy => h y (by simp [hy])
    unfold Memory.write
    split
    · exact Memory.above_cons hi h
    · split
      · exact Memory.above_cons hi hm
      · intro y hy
        rcases List.mem_cons.1 hy with rfl | hy
        · exact hj
        · exact ih hm y hy

theorem Memory.wf_cons {i : Nat} {b : Byte} {m : Memory} (hi : i < 256) (ha : Memory.above i m)
    (h : Memory.wf m = true) : Memory.wf (Memory.cons i b m) = true := by
  unfold Memory.cons
  split
  · exact h
  · next hb => exact (Memory.wf_cons_iff i b m).2 ⟨ha, hi, hb, h⟩

/-- A write inside the buffer keeps the canonical form. -/
theorem Memory.wf_write {m : Memory} {i : Nat} {b : Byte} (hi : i < 256) (h : Memory.wf m = true) :
    Memory.wf (Memory.write m i b) = true := by
  induction m with
  | nil => exact Memory.wf_cons hi (by simp [Memory.above]) rfl
  | cons x m ih =>
    obtain ⟨k, v⟩ := x
    obtain ⟨hk, hk2, hv, hm⟩ := (Memory.wf_cons_iff k v m).1 h
    unfold Memory.write
    split
    · next hlt =>
      refine Memory.wf_cons hi ?_ h
      intro y hy
      rcases List.mem_cons.1 hy with rfl | hy
      · exact hlt
      · exact Nat.lt_trans hlt (hk y hy)
    · split
      · next _ he => subst he; exact Memory.wf_cons hi hk hm
      · exact (Memory.wf_cons_iff k v _).2 ⟨Memory.above_write (by omega) hk, hk2, hv, ih hm⟩

/-- A buffer given by its bytes is in canonical form. -/
theorem Memory.wf_ofFn (f : Nat → Byte) : Memory.wf (Memory.ofFn f) = true := by
  rw [Memory.wf_iff]
  constructor
  · unfold Memory.ofFn
    rw [List.pairwise_filterMap]
    refine List.Pairwise.imp ?_ List.pairwise_lt_range
    intro a b hab x hx y hy
    split at hx <;> split at hy <;> simp_all
    obtain ⟨rfl, -⟩ := hx; obtain ⟨rfl, -⟩ := hy; simpa using hab
  · intro x hx
    simp only [Memory.ofFn, List.mem_filterMap, List.mem_range, bufCap] at hx
    obtain ⟨a, ha, hx⟩ := hx
    split at hx
    · simp at hx
    · next hne => simp only [Option.some.injEq] at hx; subst hx; exact ⟨ha, hne⟩

/-- The reset buffer and registry are in canonical form. -/
theorem reset_storage : Memory.wf State.reset.buf = true ∧ Registry.wf State.reset.registry = true := by decide

/-- Looking up after a registration, in any table: "last registration wins" (10_state.md R34). -/
theorem Registry.find_put (r : Registry) (c d : Nat) (h : Handler) :
    Registry.find (Registry.put r c h) d = if d = c then some h else Registry.find r d := by
  induction r with
  | nil => simp [Registry.put, Registry.find, eq_comm]
  | cons x r ih =>
    obtain ⟨k, g⟩ := x
    unfold Registry.put
    split
    · simp [Registry.find, eq_comm]
    · split
      · next he => subst he; simp only [Registry.find]; by_cases hd : d = c <;> simp [hd, Ne.symm]
      · next hne =>
        simp only [Registry.find, ih]
        by_cases hk : k = d
        · subst hk; simp [Ne.symm hne]
        · simp [hk]

theorem Registry.wf_iff (r : Registry) :
    Registry.wf r = true ↔ r.Pairwise (fun x y => x.1 < y.1) ∧ ∀ x ∈ r, x.1 < 256 := by
  simp [Registry.wf]

theorem Registry.mem_put {r : Registry} {c : Nat} {h : Handler} {y : Nat × Handler}
    (hy : y ∈ Registry.put r c h) : y = (c, h) ∨ y ∈ r := by
  induction r with
  | nil => simpa [Registry.put] using hy
  | cons x r ih =>
    obtain ⟨k, g⟩ := x
    unfold Registry.put at hy
    split at hy
    · simpa using hy
    · split at hy
      · rcases List.mem_cons.1 hy with rfl | hy <;> simp_all
      · rcases List.mem_cons.1 hy with rfl | hy
        · simp
        · rcases ih hy with h | h <;> simp [h]

/-- A registration keeps the canonical form. -/
theorem Registry.wf_put {r : Registry} {c : Nat} {h : Handler} (hc : c < 256) (hr : Registry.wf r = true) :
    Registry.wf (Registry.put r c h) = true := by
  rw [Registry.wf_iff] at *
  obtain ⟨hp, ha⟩ := hr
  refine ⟨?_, fun y hy => ?_⟩
  · induction r with
    | nil => simp [Registry.put]
    | cons x r ih =>
      obtain ⟨k, g⟩ := x
      rw [List.pairwise_cons] at hp
      unfold Registry.put
      split
      · next hlt =>
        refine List.pairwise_cons.2 ⟨fun y hy => ?_, List.pairwise_cons.2 hp⟩
        rcases List.mem_cons.1 hy with rfl | hy
        · exact hlt
        · exact Nat.lt_trans hlt (hp.1 y hy)
      · split
        · next _ he => subst he; exact List.pairwise_cons.2 hp
        · next hlt hne =>
          refine List.pairwise_cons.2 ⟨fun y hy => ?_, ih hp.2 fun y hy => ha y (by simp [hy])⟩
          rcases Registry.mem_put hy with rfl | hy
          · show k < c; omega
          · exact hp.1 y hy
  · rcases Registry.mem_put hy with rfl | hy
    · exact hc
    · exact ha y hy

/-- Any list of registrations keeps the canonical form. -/
theorem Registry.wf_registerAll (hs : List (Byte × Handler)) {r : Registry} (hr : Registry.wf r = true) :
    Registry.wf (registerAll hs r) = true := by
  induction hs generalizing r with
  | nil => exact hr
  | cons x hs ih => exact ih (Registry.wf_put x.1.isLt hr)

end Sys2Proof.Machine
end

