-- ==== Sys2Proof/Laws/Ops.lean ====
section
/-! SUPPORT. One lemma for each shared operation that says once what it can do; proofs about instructions cite these and
do not unfold the operation. -/

namespace Sys2Proof.Machine

open Sys2Proof

/-! The transmit path. -/

theorem packetEncode_eq (dst src cmd : Byte) (payload : List Byte) :
    packetEncode dst src cmd payload =
      if 250 < payload.length then none
      else some ([0xAA, dst, src, cmd, BitVec.ofNat 8 payload.length] ++ payload ++
        le16 (crcOf ([dst, src, cmd, BitVec.ofNat 8 payload.length] ++ payload)) ++ [0x55]) := by
  simp [packetEncode, maxPayload, frameBytes, le16, checkedBody, startMarker, endMarker]

/-- The eight steps, with the return, from an accepted request. -/
theorem txSequence_accept (dst src cmd : Byte) (payload f : List Byte) (s : State) :
    txReturn (txSequence (txAccept dst src cmd payload f s)) =
      afterTx (crcOf (checkedBody dst src cmd payload)) f s := by
  unfold txSequence
  cases hd : s.draws <;>
    simp [txReturn, txStepH, txStepG, txStepF, txStepE, txStepD, txStepC, txStepB, txStepA, txAccept, afterTx,
      dropDraw, nextDraw, nextDuring, hd]

/-- TXREQ while nothing is in flight answers a next state, always. -/
theorem txRequest_of_inactive (dst src cmd : Byte) (payload : List Byte) (s : State) (h : s.txActive = false) :
    txRequest dst src cmd payload s = .next (afterTxReq dst src cmd payload s) := by
  unfold txRequest afterTxReq
  rw [packetEncode_eq, if_neg (by simp [h])]
  by_cases hl : 250 < payload.length
  · simp [hl]
  · simp [hl, txSequence_accept, checkedBody]

/-- A second request is refused (43 R213). -/
theorem txRequest_of_active (dst src cmd : Byte) (payload : List Byte) (s : State) (h : s.txActive = true) :
    txRequest dst src cmd payload s = .refused .reentrantTx := by
  simp [txRequest, h]

@[simp] theorem afterTxReq_buf (dst src cmd : Byte) (payload : List Byte) (s : State) :
    (afterTxReq dst src cmd payload s).buf = s.buf := by unfold afterTxReq; split <;> simp [afterTx]
@[simp] theorem afterTxReq_idx (dst src cmd : Byte) (payload : List Byte) (s : State) :
    (afterTxReq dst src cmd payload s).idx = s.idx := by unfold afterTxReq; split <;> simp [afterTx]
@[simp] theorem afterTxReq_expLen (dst src cmd : Byte) (payload : List Byte) (s : State) :
    (afterTxReq dst src cmd payload s).expLen = s.expLen := by unfold afterTxReq; split <;> simp [afterTx]
@[simp] theorem afterTxReq_lastTs (dst src cmd : Byte) (payload : List Byte) (s : State) :
    (afterTxReq dst src cmd payload s).lastTs = s.lastTs := by unfold afterTxReq; split <;> simp [afterTx]
@[simp] theorem afterTxReq_uptimeS (dst src cmd : Byte) (payload : List Byte) (s : State) :
    (afterTxReq dst src cmd payload s).uptimeS = s.uptimeS := by unfold afterTxReq; split <;> simp [afterTx]
@[simp] theorem afterTxReq_health (dst src cmd : Byte) (payload : List Byte) (s : State) :
    (afterTxReq dst src cmd payload s).health = s.health := by unfold afterTxReq; split <;> simp [afterTx]
@[simp] theorem afterTxReq_myAddr (dst src cmd : Byte) (payload : List Byte) (s : State) :
    (afterTxReq dst src cmd payload s).myAddr = s.myAddr := by unfold afterTxReq; split <;> simp [afterTx]
@[simp] theorem afterTxReq_registry (dst src cmd : Byte) (payload : List Byte) (s : State) :
    (afterTxReq dst src cmd payload s).registry = s.registry := by unfold afterTxReq; split <;> simp [afterTx]
@[simp] theorem afterTxReq_version (dst src cmd : Byte) (payload : List Byte) (s : State) :
    (afterTxReq dst src cmd payload s).version = s.version := by unfold afterTxReq; split <;> simp [afterTx]
@[simp] theorem afterTxReq_clock (dst src cmd : Byte) (payload : List Byte) (s : State) :
    (afterTxReq dst src cmd payload s).clock = s.clock := by unfold afterTxReq; split <;> simp [afterTx]
@[simp] theorem afterTxReq_caller (dst src cmd : Byte) (payload : List Byte) (s : State) :
    (afterTxReq dst src cmd payload s).caller = s.caller := by unfold afterTxReq; split <;> simp [afterTx]
@[simp] theorem afterTxReq_inbox (dst src cmd : Byte) (payload : List Byte) (s : State) :
    (afterTxReq dst src cmd payload s).inbox = s.inbox := by unfold afterTxReq; split <;> simp [afterTx]
@[simp] theorem afterTxReq_emitted (dst src cmd : Byte) (payload : List Byte) (s : State) :
    (afterTxReq dst src cmd payload s).emitted = s.emitted := by unfold afterTxReq; split <;> simp [afterTx]
@[simp] theorem afterTxReq_rxCount (dst src cmd : Byte) (payload : List Byte) (s : State) :
    (afterTxReq dst src cmd payload s).rxCount = s.rxCount := by unfold afterTxReq; split <;> simp [afterTx]
@[simp] theorem afterTxReq_txCount (dst src cmd : Byte) (payload : List Byte) (s : State) :
    (afterTxReq dst src cmd payload s).txCount = s.txCount := by unfold afterTxReq; split <;> simp [afterTx]
@[simp] theorem afterTxReq_errCount (dst src cmd : Byte) (payload : List Byte) (s : State) :
    (afterTxReq dst src cmd payload s).errCount = s.errCount := by unfold afterTxReq; split <;> simp [afterTx]

/-- SEND while nothing is in flight answers a next state, always. -/
theorem transmit_of_inactive (dst src cmd : Byte) (payload : List Byte) (s : State) (h : s.txActive = false) :
    transmit dst src cmd payload s = .next (afterSend dst src cmd payload s) := by
  unfold transmit afterSend
  rw [txRequest_of_inactive _ _ _ _ _ h, andThen_next]
  simp only [txAccount]
  split <;> simp_all only [raise_txFail, afterTxReq_txCount, afterTxReq_errCount]

/-- A second request is refused (43 R213). -/
theorem transmit_of_active (dst src cmd : Byte) (payload : List Byte) (s : State) (h : s.txActive = true) :
    transmit dst src cmd payload s = .refused .reentrantTx := by
  simp [transmit, txRequest_of_active _ _ _ _ _ h]

@[simp] theorem afterSend_buf (dst src cmd : Byte) (payload : List Byte) (s : State) :
    (afterSend dst src cmd payload s).buf = s.buf := by unfold afterSend; simp only; split <;> simp
@[simp] theorem afterSend_idx (dst src cmd : Byte) (payload : List Byte) (s : State) :
    (afterSend dst src cmd payload s).idx = s.idx := by unfold afterSend; simp only; split <;> simp
@[simp] theorem afterSend_expLen (dst src cmd : Byte) (payload : List Byte) (s : State) :
    (afterSend dst src cmd payload s).expLen = s.expLen := by unfold afterSend; simp only; split <;> simp
@[simp] theorem afterSend_lastTs (dst src cmd : Byte) (payload : List Byte) (s : State) :
    (afterSend dst src cmd payload s).lastTs = s.lastTs := by unfold afterSend; simp only; split <;> simp
@[simp] theorem afterSend_uptimeS (dst src cmd : Byte) (payload : List Byte) (s : State) :
    (afterSend dst src cmd payload s).uptimeS = s.uptimeS := by unfold afterSend; simp only; split <;> simp
@[simp] theorem afterSend_health (dst src cmd : Byte) (payload : List Byte) (s : State) :
    (afterSend dst src cmd payload s).health = s.health := by unfold afterSend; simp only; split <;> simp
@[simp] theorem afterSend_myAddr (dst src cmd : Byte) (payload : List Byte) (s : State) :
    (afterSend dst src cmd payload s).myAddr = s.myAddr := by unfold afterSend; simp only; split <;> simp
@[simp] theorem afterSend_registry (dst src cmd : Byte) (payload : List Byte) (s : State) :
    (afterSend dst src cmd payload s).registry = s.registry := by unfold afterSend; simp only; split <;> simp
@[simp] theorem afterSend_version (dst src cmd : Byte) (payload : List Byte) (s : State) :
    (afterSend dst src cmd payload s).version = s.version := by unfold afterSend; simp only; split <;> simp
@[simp] theorem afterSend_clock (dst src cmd : Byte) (payload : List Byte) (s : State) :
    (afterSend dst src cmd payload s).clock = s.clock := by unfold afterSend; simp only; split <;> simp
@[simp] theorem afterSend_caller (dst src cmd : Byte) (payload : List Byte) (s : State) :
    (afterSend dst src cmd payload s).caller = s.caller := by unfold afterSend; simp only; split <;> simp
@[simp] theorem afterSend_inbox (dst src cmd : Byte) (payload : List Byte) (s : State) :
    (afterSend dst src cmd payload s).inbox = s.inbox := by unfold afterSend; simp only; split <;> simp
@[simp] theorem afterSend_emitted (dst src cmd : Byte) (payload : List Byte) (s : State) :
    (afterSend dst src cmd payload s).emitted = s.emitted := by unfold afterSend; simp only; split <;> simp
@[simp] theorem afterSend_rxCount (dst src cmd : Byte) (payload : List Byte) (s : State) :
    (afterSend dst src cmd payload s).rxCount = s.rxCount := by unfold afterSend; simp only; split <;> simp

/-- After SEND nothing is in flight. -/
theorem afterSend_txActive (dst src cmd : Byte) (payload : List Byte) (s : State) (h : s.txActive = false) :
    (afterSend dst src cmd payload s).txActive = false := by
  unfold afterSend afterTxReq; simp only; split <;> split <;> simp_all [afterTx]

/-! What the consumer of a received frame may change. -/

/-- `t` is `s` but for what a response or a handler may write; the direction flags stand as they were, or the node,
with nothing in flight before, listens. -/
def RespondedFrom (s t : State) : Prop :=
  t = { s with
    crc := t.crc, txFrame := t.txFrame, rxCount := t.rxCount, txCount := t.txCount, errCount := t.errCount
    txOutcome := t.txOutcome, inFlight := t.inFlight, lineTx := t.lineTx, onLine := t.onLine, ret := t.ret
    draws := t.draws, lost := t.lost, freeCtr := t.freeCtr, drive := t.drive, rxSuppress := t.rxSuppress, phase := t.phase
    txActive := t.txActive } ∧
    ((t.drive = s.drive ∧ t.rxSuppress = s.rxSuppress ∧ t.phase = s.phase ∧ t.txActive = s.txActive ∧
        t.txFrame = s.txFrame ∧ t.lost = s.lost) ∨
      (s.txActive = false ∧ t.drive = false ∧ t.rxSuppress = false ∧ t.phase = .listen ∧ t.txActive = false))

theorem RespondedFrom.txActive {s t : State} (h : RespondedFrom s t) (hs : s.txActive = false) :
    t.txActive = false := by
  rcases h.2 with ⟨-, -, -, h, -⟩ | ⟨-, -, -, -, h⟩
  · rw [h, hs]
  · exact h

theorem RespondedFrom.of_send (dst src cmd : Byte) (payload : List Byte) (s : State) (h : s.txActive = false) :
    RespondedFrom s (afterSend dst src cmd payload s) := by
  refine ⟨?_, ?_⟩
  · unfold afterSend afterTxReq; simp only
    split <;> split <;> (cases hd : s.draws <;> simp_all [afterTx, dropDraw])
  · unfold afterSend afterTxReq; simp only
    split <;> split <;> simp_all [afterTx]

/-- What is responded from `s` with one field counted on is responded from `s`. -/
theorem RespondedFrom.of_rxCount {s t : State} {c : Word32} (h : RespondedFrom { s with rxCount := c } t) :
    RespondedFrom s t := by
  obtain ⟨h1, h2⟩ := h
  exact ⟨by rw [h1], h2⟩

theorem RespondedFrom.of_freeCtr {s t : State} {n : Nat} (h : RespondedFrom { s with freeCtr := n } t) :
    RespondedFrom s t := by
  obtain ⟨h1, h2⟩ := h
  exact ⟨by rw [h1], h2⟩

/-- SEND answers a next state exactly while nothing is in flight. -/
theorem transmit_eq_next {dst src cmd : Byte} {payload : List Byte} {s t : State}
    (h : transmit dst src cmd payload s = .next t) : s.txActive = false ∧ t = afterSend dst src cmd payload s := by
  by_cases hs : s.txActive = false
  · rw [transmit_of_inactive _ _ _ _ _ hs] at h
    cases h
    exact ⟨hs, rfl⟩
  · rw [transmit_of_active _ _ _ _ _ (by simpa using hs)] at h
    cases h

theorem transmit_from {dst src cmd : Byte} {payload : List Byte} {s t : State}
    (h : transmit dst src cmd payload s = .next t) : RespondedFrom s t := by
  obtain ⟨hs, rfl⟩ := transmit_eq_next h
  exact .of_send _ _ _ _ _ hs

/-- What a handler may change, whenever it answers. -/
theorem runHandler_from {h : Handler} {p : Packet} {s t : State} (ht : runHandler h p s = .next t) :
    RespondedFrom s t := by
  cases h with
  | ping => exact transmit_from ht
  | getVersion => exact transmit_from ht
  | heartbeat => exact transmit_from ht
  | getStatus => exact transmit_from ht
  | external id =>
    simp only [runHandler, externalReply] at ht
    split at ht
    · cases ht; exact ⟨rfl, .inl ⟨rfl, rfl, rfl, rfl, rfl, rfl⟩⟩
    · exact (transmit_from ht).of_freeCtr

/-- What DISPATCH may change, whenever it answers. -/
theorem dispatchPacket_from {p : Packet} {s t : State} (ht : dispatchPacket p s = .next t) : RespondedFrom s t := by
  unfold dispatchPacket at ht
  split at ht
  · simp only at ht
    split at ht
    · exact (runHandler_from ht).of_rxCount
    · rw [raise_unsupported, andThen_next] at ht
      exact (transmit_from ht).of_rxCount
  · cases ht; exact ⟨rfl, .inl ⟨rfl, rfl, rfl, rfl, rfl, rfl⟩⟩

/-- What the consumer of an output may change, whenever it answers. -/
theorem consume_from {e : Emission} {s t : State} (ht : consume e s = .next t) : RespondedFrom s t := by
  cases e with
  | frameValid p => exact dispatchPacket_from ht
  | frameCrcError src => exact transmit_from ht

theorem runHandler_answers (h : Handler) (p : Packet) (s : State) (hs : s.txActive = false) :
    ∃ t, runHandler h p s = .next t := by
  cases h with
  | ping => exact ⟨_, transmit_of_inactive _ _ _ _ _ hs⟩
  | getVersion => exact ⟨_, transmit_of_inactive _ _ _ _ _ hs⟩
  | heartbeat => exact ⟨_, transmit_of_inactive _ _ _ _ _ hs⟩
  | getStatus => exact ⟨_, transmit_of_inactive _ _ _ _ _ hs⟩
  | external id =>
    simp only [runHandler, externalReply]
    split
    · exact ⟨_, rfl⟩
    · exact ⟨_, transmit_of_inactive _ _ _ _ { s with freeCtr := s.freeCtr + 1 } hs⟩

theorem dispatchPacket_answers (p : Packet) (s : State) (hs : s.txActive = false) :
    ∃ t, dispatchPacket p s = .next t := by
  unfold dispatchPacket
  split
  · simp only
    split
    · exact runHandler_answers _ p { s with rxCount := s.rxCount + 1 } hs
    · exact ⟨_, transmit_of_inactive _ _ _ _ { s with rxCount := s.rxCount + 1 } hs⟩
  · exact ⟨s, rfl⟩

/-- The consumer of an output always answers while nothing is in flight. -/
theorem consume_answers (e : Emission) (s : State) (hs : s.txActive = false) : ∃ t, consume e s = .next t := by
  cases e with
  | frameValid p => exact dispatchPacket_answers p s hs
  | frameCrcError src => exact ⟨_, transmit_of_inactive _ _ _ _ _ hs⟩

/-- A step of the transmit sequence answers only in its turn. -/
theorem inTurn_eq_next {p : Phase} {k : State → Res} {s t : State} (h : inTurn p k s = .next t) :
    s.phase = p ∧ k s = .next t := by
  unfold inTurn at h
  split at h
  · exact ⟨by assumption, h⟩
  · cases h

/-- While a transmission is in flight an external handler is refused exactly when it asks for a response. -/
theorem externalReply_of_active (id : Nat) (p : Packet) (s : State) (h : s.txActive = true) :
    externalReply id p s =
      if (Config.extReply id p s.freeCtr).isSome then .refused .reentrantTx
      else .next { s with freeCtr := s.freeCtr + 1 } := by
  unfold externalReply
  cases Config.extReply id p s.freeCtr with
  | none => simp
  | some r => simpa using transmit_of_active _ _ _ _ { s with freeCtr := s.freeCtr + 1 } h

/-! The CRC Engine. -/

/-- CRC.BYTE for each byte, as operations, is the fold of the register. -/
theorem crcBytes_eq (bs : List Byte) (s : State) :
    bs.foldl (fun r b => andThen r (exec (.crcByte b))) (.next s) = .next { s with crc := bs.foldl crcStep s.crc } := by
  induction bs generalizing s with
  | nil => rfl
  | cons b bs ih => exact ih { s with crc := crcStep s.crc b }

/-- CRC.INIT and CRC.BYTE for each byte leave `crcOf` in the register, whatever it held. -/
theorem crcRun_eq (bs : List Byte) (s : State) : crcRun bs s = .next { s with crc := crcOf bs } :=
  crcBytes_eq bs { s with crc := crcStart }

/-! The Frame Assembler. -/

/-- Steps 5 and 6 of RXBYTE, inside the buffer. -/
def appended (b : Byte) (s : State) : State :=
  let t := { s with buf := Memory.write s.buf s.idx b, idx := s.idx + 1 }
  if s.idx = 4 then { t with expLen := Memory.read t.buf 4 } else t

/-- Step 7 of RXBYTE, inside the buffer. -/
def finished (s : State) : State × Option Emission :=
  if structurallyComplete s then
    if Memory.read s.buf (s.idx - 1) = endMarker then handOff ((List.range s.idx).map (Memory.read s.buf)) s
    else (errorChange .badEnd s, none)
  else (s, none)

/-- The seven steps of RXBYTE up to the output. -/
def assembled (b : Byte) (now : Word32) (s : State) : State × Option Emission :=
  let t := arrive now s
  if t.idx = 0 then
    (if b = startMarker then { t with buf := Memory.write t.buf 0 b, idx := 1 } else t, none)
  else if 256 ≤ t.idx then (errorChange .overflow t, none)
  else finished (appended b t)

theorem appendByte_eq (b : Byte) (s : State) (h : s.idx < 256) : appendByte b s = .ok (appended b s) := by
  by_cases h4 : s.idx = 4 <;>
    simp [appendByte, appended, bufStore, latchLength, bufLoad, bufCap, h, h4, bind, Except.bind]

theorem appended_idx (b : Byte) (s : State) : (appended b s).idx = s.idx + 1 := by
  unfold appended; simp only; split <;> rfl

theorem finishFrame_eq (s : State) (h : s.idx ≤ 256) : finishFrame s = .ok (finished s) := by
  unfold finishFrame finished
  by_cases hc : structurallyComplete s
  · have h8 : s.idx - 1 < 256 := by
      simp only [structurallyComplete, Bool.and_eq_true, decide_eq_true_eq] at hc; omega
    by_cases he : Memory.read s.buf (s.idx - 1) = endMarker <;>
      simp [hc, bufLoad, bufSlice, bufCap, h8, h, he, bind, Except.bind]
  · simp [hc]

/-- RXBYTE never indexes the buffer outside 0 to 255, from any state (42 R186): its steps are `assembled`. -/
theorem assemble_eq (b : Byte) (now : Word32) (s : State) : assemble b now s = .ok (assembled b now s) := by
  unfold assemble assembled
  simp only
  split
  · by_cases hb : b = startMarker <;> simp [startFrame, bufStore, bufCap, hb, bind, Except.bind]
  · next h0 =>
    by_cases h : 256 ≤ (arrive now s).idx
    · simp [bufCap, h]
    · have hlt : (arrive now s).idx < 256 := by omega
      rw [if_neg (by simpa [bufCap] using h), if_neg h]
      simp only [appendByte_eq b _ hlt, bind, Except.bind]
      exact finishFrame_eq _ (by rw [appended_idx]; omega)

/-- `t` is `s` but for what the assembler may write. -/
def AssembledFrom (s t : State) : Prop :=
  t = { s with
    buf := t.buf, idx := t.idx, expLen := t.expLen, lastTs := t.lastTs, crc := t.crc
    errCount := t.errCount, emitted := t.emitted }

theorem assembled_from (b : Byte) (now : Word32) (s : State) : AssembledFrom s (assembled b now s).1 := by
  unfold AssembledFrom assembled arrive appended finished handOff
  simp only
  split <;> split <;> (try split) <;> (try split) <;> (try split) <;> (try split) <;> simp

/-- RXBYTE, with nothing in flight, is the assembler and then perhaps the consumer. -/
theorem receiveByte_eq (b : Byte) (now : Word32) (s : State) :
    receiveByte b now s =
      match (assembled b now s).2 with
      | none => .next (assembled b now s).1
      | some e => consume e (assembled b now s).1 := by
  unfold receiveByte
  rw [assemble_eq]
  split <;> simp_all

end Sys2Proof.Machine
end

