-- ==== Sys2Proof/Laws/PerInstr.lean ====
section
/-! SUPPORT. One family of statements about every instruction as syntax: the form of its bytes on the wire (30_encoding.md
R90, R91, R99). -/

/-- What the encoder writes starts with the start marker, has at least eight bytes, and for a well-formed instruction
exactly eight more than its length byte says; an operation (an EVENT row) has no bytes. -/
def Sys2Proof.Laws.WireForm.Statement (i : Sys2Proof.Instr) : Prop :=
  ∀ bs, Sys2Proof.encode i = some bs →
    bs.head? = some Sys2Proof.startMarker ∧ 8 ≤ bs.length ∧
      (Sys2Proof.wellFormed i = true → bs.length = 8 + (bs.getD 4 0).toNat)

/-- The form of a frame with a payload of at most 255 bytes. -/
theorem Sys2Proof.Laws.wire_form_of_frame {i : Sys2Proof.Instr} (c : Sys2Proof.Byte) (f : Sys2Proof.FrameFields)
    (he : Sys2Proof.encode i = some (Sys2Proof.frameBytes c f))
    (hw : Sys2Proof.wellFormed i = true → Sys2Proof.payloadFits f.payload = true) :
    Sys2Proof.Laws.WireForm.Statement i := by
  intro bs hb
  obtain rfl : Sys2Proof.frameBytes c f = bs := Option.some.inj (he.symm.trans hb)
  refine ⟨rfl, by simp [Sys2Proof.frameBytes], fun h => ?_⟩
  have hp : f.payload.length ≤ 255 := by simpa [Sys2Proof.payloadFits] using hw h
  simp [Sys2Proof.frameBytes]
  omega

/-- An instruction without bytes. -/
theorem Sys2Proof.Laws.wire_form_of_event {i : Sys2Proof.Instr} (he : Sys2Proof.encode i = none) :
    Sys2Proof.Laws.WireForm.Statement i :=
  fun _ hb => nomatch he.symm.trans hb

theorem Sys2Proof.Laws.WireForm.fPing (f : Sys2Proof.FrameFields) :
    Sys2Proof.Laws.WireForm.Statement (Sys2Proof.Instr.fPing f) :=
  Sys2Proof.Laws.wire_form_of_frame Sys2Proof.codePing f rfl id

theorem Sys2Proof.Laws.WireForm.fPingResp (f : Sys2Proof.FrameFields) :
    Sys2Proof.Laws.WireForm.Statement (Sys2Proof.Instr.fPingResp f) :=
  Sys2Proof.Laws.wire_form_of_frame Sys2Proof.codePingResp f rfl id

theorem Sys2Proof.Laws.WireForm.fGetVer (f : Sys2Proof.FrameFields) :
    Sys2Proof.Laws.WireForm.Statement (Sys2Proof.Instr.fGetVer f) :=
  Sys2Proof.Laws.wire_form_of_frame Sys2Proof.codeGetVer f rfl id

theorem Sys2Proof.Laws.WireForm.fGetVerResp (f : Sys2Proof.FrameFields) :
    Sys2Proof.Laws.WireForm.Statement (Sys2Proof.Instr.fGetVerResp f) :=
  Sys2Proof.Laws.wire_form_of_frame Sys2Proof.codeGetVerResp f rfl id

theorem Sys2Proof.Laws.WireForm.fHeartbeat (f : Sys2Proof.FrameFields) :
    Sys2Proof.Laws.WireForm.Statement (Sys2Proof.Instr.fHeartbeat f) :=
  Sys2Proof.Laws.wire_form_of_frame Sys2Proof.codeHeartbeat f rfl id

theorem Sys2Proof.Laws.WireForm.fHeartbeatResp (f : Sys2Proof.FrameFields) :
    Sys2Proof.Laws.WireForm.Statement (Sys2Proof.Instr.fHeartbeatResp f) :=
  Sys2Proof.Laws.wire_form_of_frame Sys2Proof.codeHeartbeatResp f rfl id

theorem Sys2Proof.Laws.WireForm.fGetStatus (f : Sys2Proof.FrameFields) :
    Sys2Proof.Laws.WireForm.Statement (Sys2Proof.Instr.fGetStatus f) :=
  Sys2Proof.Laws.wire_form_of_frame Sys2Proof.codeGetStatus f rfl id

theorem Sys2Proof.Laws.WireForm.fGetStatusResp (f : Sys2Proof.FrameFields) :
    Sys2Proof.Laws.WireForm.Statement (Sys2Proof.Instr.fGetStatusResp f) :=
  Sys2Proof.Laws.wire_form_of_frame Sys2Proof.codeGetStatusResp f rfl id

theorem Sys2Proof.Laws.WireForm.fReadDin (f : Sys2Proof.FrameFields) :
    Sys2Proof.Laws.WireForm.Statement (Sys2Proof.Instr.fReadDin f) :=
  Sys2Proof.Laws.wire_form_of_frame Sys2Proof.codeReadDin f rfl id

theorem Sys2Proof.Laws.WireForm.fReadDinResp (f : Sys2Proof.FrameFields) :
    Sys2Proof.Laws.WireForm.Statement (Sys2Proof.Instr.fReadDinResp f) :=
  Sys2Proof.Laws.wire_form_of_frame Sys2Proof.codeReadDinResp f rfl id

theorem Sys2Proof.Laws.WireForm.fWriteDout (f : Sys2Proof.FrameFields) :
    Sys2Proof.Laws.WireForm.Statement (Sys2Proof.Instr.fWriteDout f) :=
  Sys2Proof.Laws.wire_form_of_frame Sys2Proof.codeWriteDout f rfl id

theorem Sys2Proof.Laws.WireForm.fWriteDoutResp (f : Sys2Proof.FrameFields) :
    Sys2Proof.Laws.WireForm.Statement (Sys2Proof.Instr.fWriteDoutResp f) :=
  Sys2Proof.Laws.wire_form_of_frame Sys2Proof.codeWriteDoutResp f rfl id

theorem Sys2Proof.Laws.WireForm.fReadDout (f : Sys2Proof.FrameFields) :
    Sys2Proof.Laws.WireForm.Statement (Sys2Proof.Instr.fReadDout f) :=
  Sys2Proof.Laws.wire_form_of_frame Sys2Proof.codeReadDout f rfl id

theorem Sys2Proof.Laws.WireForm.fReadAnalog (f : Sys2Proof.FrameFields) :
    Sys2Proof.Laws.WireForm.Statement (Sys2Proof.Instr.fReadAnalog f) :=
  Sys2Proof.Laws.wire_form_of_frame Sys2Proof.codeReadAnalog f rfl id

theorem Sys2Proof.Laws.WireForm.fReadAnalogResp (f : Sys2Proof.FrameFields) :
    Sys2Proof.Laws.WireForm.Statement (Sys2Proof.Instr.fReadAnalogResp f) :=
  Sys2Proof.Laws.wire_form_of_frame Sys2Proof.codeReadAnalogResp f rfl id

theorem Sys2Proof.Laws.WireForm.fErrorResp (f : Sys2Proof.FrameFields) :
    Sys2Proof.Laws.WireForm.Statement (Sys2Proof.Instr.fErrorResp f) :=
  Sys2Proof.Laws.wire_form_of_frame Sys2Proof.codeErrorResp f rfl id

theorem Sys2Proof.Laws.WireForm.fUnassignedCmd (cmd : Sys2Proof.Byte) (f : Sys2Proof.FrameFields) :
    Sys2Proof.Laws.WireForm.Statement (Sys2Proof.Instr.fUnassignedCmd cmd f) :=
  Sys2Proof.Laws.wire_form_of_frame cmd f rfl (fun h => ((Bool.and_eq_true _ _).mp h).2)

theorem Sys2Proof.Laws.WireForm.crc16 (bs : List Sys2Proof.Byte) :
    Sys2Proof.Laws.WireForm.Statement (Sys2Proof.Instr.crc16 bs) :=
  Sys2Proof.Laws.wire_form_of_event rfl

theorem Sys2Proof.Laws.WireForm.crcInit :
    Sys2Proof.Laws.WireForm.Statement Sys2Proof.Instr.crcInit :=
  Sys2Proof.Laws.wire_form_of_event rfl

theorem Sys2Proof.Laws.WireForm.crcByte (b : Sys2Proof.Byte) :
    Sys2Proof.Laws.WireForm.Statement (Sys2Proof.Instr.crcByte b) :=
  Sys2Proof.Laws.wire_form_of_event rfl

theorem Sys2Proof.Laws.WireForm.crcBit (d : Bool) :
    Sys2Proof.Laws.WireForm.Statement (Sys2Proof.Instr.crcBit d) :=
  Sys2Proof.Laws.wire_form_of_event rfl

theorem Sys2Proof.Laws.WireForm.encode (dst src cmd : Sys2Proof.Byte) (payload : List Sys2Proof.Byte) :
    Sys2Proof.Laws.WireForm.Statement (Sys2Proof.Instr.encode dst src cmd payload) :=
  Sys2Proof.Laws.wire_form_of_event rfl

theorem Sys2Proof.Laws.WireForm.decode (bs : List Sys2Proof.Byte) :
    Sys2Proof.Laws.WireForm.Statement (Sys2Proof.Instr.decode bs) :=
  Sys2Proof.Laws.wire_form_of_event rfl

theorem Sys2Proof.Laws.WireForm.rxByte (b : Sys2Proof.Byte) (now : Sys2Proof.Word32) :
    Sys2Proof.Laws.WireForm.Statement (Sys2Proof.Instr.rxByte b now) :=
  Sys2Proof.Laws.wire_form_of_event rfl

theorem Sys2Proof.Laws.WireForm.lineByte (b : Sys2Proof.Byte) (now : Sys2Proof.Word32) :
    Sys2Proof.Laws.WireForm.Statement (Sys2Proof.Instr.lineByte b now) :=
  Sys2Proof.Laws.wire_form_of_event rfl

theorem Sys2Proof.Laws.WireForm.txReq (dst src cmd : Sys2Proof.Byte) (payload : List Sys2Proof.Byte) :
    Sys2Proof.Laws.WireForm.Statement (Sys2Proof.Instr.txReq dst src cmd payload) :=
  Sys2Proof.Laws.wire_form_of_event rfl

theorem Sys2Proof.Laws.WireForm.txA :
    Sys2Proof.Laws.WireForm.Statement Sys2Proof.Instr.txA :=
  Sys2Proof.Laws.wire_form_of_event rfl

theorem Sys2Proof.Laws.WireForm.txB :
    Sys2Proof.Laws.WireForm.Statement Sys2Proof.Instr.txB :=
  Sys2Proof.Laws.wire_form_of_event rfl

theorem Sys2Proof.Laws.WireForm.txC :
    Sys2Proof.Laws.WireForm.Statement Sys2Proof.Instr.txC :=
  Sys2Proof.Laws.wire_form_of_event rfl

theorem Sys2Proof.Laws.WireForm.txD :
    Sys2Proof.Laws.WireForm.Statement Sys2Proof.Instr.txD :=
  Sys2Proof.Laws.wire_form_of_event rfl

theorem Sys2Proof.Laws.WireForm.txE (d : Sys2Proof.TxDraw) :
    Sys2Proof.Laws.WireForm.Statement (Sys2Proof.Instr.txE d) :=
  Sys2Proof.Laws.wire_form_of_event rfl

theorem Sys2Proof.Laws.WireForm.txF :
    Sys2Proof.Laws.WireForm.Statement Sys2Proof.Instr.txF :=
  Sys2Proof.Laws.wire_form_of_event rfl

theorem Sys2Proof.Laws.WireForm.txG :
    Sys2Proof.Laws.WireForm.Statement Sys2Proof.Instr.txG :=
  Sys2Proof.Laws.wire_form_of_event rfl

theorem Sys2Proof.Laws.WireForm.txH :
    Sys2Proof.Laws.WireForm.Statement Sys2Proof.Instr.txH :=
  Sys2Proof.Laws.wire_form_of_event rfl

theorem Sys2Proof.Laws.WireForm.dispatch (p : Sys2Proof.Packet) :
    Sys2Proof.Laws.WireForm.Statement (Sys2Proof.Instr.dispatch p) :=
  Sys2Proof.Laws.wire_form_of_event rfl

theorem Sys2Proof.Laws.WireForm.errResp (dest : Sys2Proof.Byte) (e : Sys2Proof.ErrCode) :
    Sys2Proof.Laws.WireForm.Statement (Sys2Proof.Instr.errResp dest e) :=
  Sys2Proof.Laws.wire_form_of_event rfl

theorem Sys2Proof.Laws.WireForm.crcErrResp (src : Sys2Proof.Byte) :
    Sys2Proof.Laws.WireForm.Statement (Sys2Proof.Instr.crcErrResp src) :=
  Sys2Proof.Laws.wire_form_of_event rfl

theorem Sys2Proof.Laws.WireForm.ping (p : Sys2Proof.Packet) :
    Sys2Proof.Laws.WireForm.Statement (Sys2Proof.Instr.ping p) :=
  Sys2Proof.Laws.wire_form_of_event rfl

theorem Sys2Proof.Laws.WireForm.getVer (p : Sys2Proof.Packet) :
    Sys2Proof.Laws.WireForm.Statement (Sys2Proof.Instr.getVer p) :=
  Sys2Proof.Laws.wire_form_of_event rfl

theorem Sys2Proof.Laws.WireForm.heartbeat (p : Sys2Proof.Packet) :
    Sys2Proof.Laws.WireForm.Statement (Sys2Proof.Instr.heartbeat p) :=
  Sys2Proof.Laws.wire_form_of_event rfl

theorem Sys2Proof.Laws.WireForm.getStatus (p : Sys2Proof.Packet) :
    Sys2Proof.Laws.WireForm.Statement (Sys2Proof.Instr.getStatus p) :=
  Sys2Proof.Laws.wire_form_of_event rfl

theorem Sys2Proof.Laws.WireForm.extHandler (id : Nat) (p : Sys2Proof.Packet) :
    Sys2Proof.Laws.WireForm.Statement (Sys2Proof.Instr.extHandler id p) :=
  Sys2Proof.Laws.wire_form_of_event rfl

theorem Sys2Proof.Laws.WireForm.register (c : Sys2Proof.Byte) (h : Sys2Proof.Handler) :
    Sys2Proof.Laws.WireForm.Statement (Sys2Proof.Instr.register c h) :=
  Sys2Proof.Laws.wire_form_of_event rfl

theorem Sys2Proof.Laws.WireForm.send (dst src cmd : Sys2Proof.Byte) (payload : List Sys2Proof.Byte) :
    Sys2Proof.Laws.WireForm.Statement (Sys2Proof.Instr.send dst src cmd payload) :=
  Sys2Proof.Laws.wire_form_of_event rfl

theorem Sys2Proof.Laws.WireForm.tick (elapsedMs : Nat) :
    Sys2Proof.Laws.WireForm.Statement (Sys2Proof.Instr.tick elapsedMs) :=
  Sys2Proof.Laws.wire_form_of_event rfl

theorem Sys2Proof.Laws.WireForm.setHealth (v : Sys2Proof.Byte) :
    Sys2Proof.Laws.WireForm.Statement (Sys2Proof.Instr.setHealth v) :=
  Sys2Proof.Laws.wire_form_of_event rfl

theorem Sys2Proof.Laws.WireForm.reset (a : Sys2Proof.BootParams) :
    Sys2Proof.Laws.WireForm.Statement (Sys2Proof.Instr.reset a) :=
  Sys2Proof.Laws.wire_form_of_event rfl
end

