-- ==== Sys2Proof/Laws/Step.lean ====
section
/-! SUPPORT. What a step of the machine can do, and the induction over arriving bytes, each said once. -/

namespace Sys2Proof.Machine
open Sys2Proof

/-- `u` is `s` but for the inputs taken from it: the queue, the clock reading, the bytes to be deleted, a draw. -/
def FetchedFrom (s u : State) : Prop :=
  u = { s with
    clock := u.clock, inbox := u.inbox, lost := u.lost, draws := u.draws, freeCtr := u.freeCtr } ∧ u.lost ≤ s.lost

theorem fetchWire_from (t : Word32) (bs : List Byte) (rest : List Input) (s : State) :
    (∃ i u, fetchWire t bs rest s = .run i u ∧ FetchedFrom s u) ∨
      ∃ u, fetchWire t bs rest s = .answer (.next u) ∧ FetchedFrom s u := by
  unfold fetchWire
  split
  · exact .inr ⟨_, rfl, rfl, by simp⟩
  · split
    · exact .inl ⟨_, _, rfl, rfl, Nat.le_refl _⟩
    · split
      · exact .inr ⟨_, rfl, rfl, Nat.le_refl _⟩
      · exact .inl ⟨_, _, rfl, rfl, Nat.le_refl _⟩

/-- What a step can do: execute an instruction, take inputs only, accept a request in steps, or refuse a call. -/
theorem step_cases (s : State) :
    (∃ i u, step s = exec i u ∧ FetchedFrom s u) ∨ (∃ u, step s = .next u ∧ FetchedFrom s u) ∨
    (∃ c dst src cmd p l, step s = openRequest c dst src cmd p { s with inbox := l, lost := 0 }) ∨
    step s = .refused .insideTransmit := by
  have wire : ∀ t bs rest, fetch s = fetchWire t bs rest s →
      (∃ i u, step s = exec i u ∧ FetchedFrom s u) ∨ (∃ u, step s = .next u ∧ FetchedFrom s u) := by
    intro t bs rest h
    unfold step
    rw [h]
    rcases fetchWire_from t bs rest s with ⟨i, u, hu, hf⟩ | ⟨u, hu, hf⟩ <;> rw [hu]
    · exact .inl ⟨i, u, rfl, hf⟩
    · exact .inr ⟨u, rfl, hf⟩
  have widen : ∀ {P Q R S : Prop}, P ∨ Q → P ∨ Q ∨ R ∨ S := fun h => h.elim .inl fun h => .inr (.inl h)
  by_cases ha : s.phase = .a
  · exact .inl ⟨.txA, { s with inbox := dropCallA s.inbox }, by unfold step fetch; rw [if_pos ha], rfl, Nat.le_refl _⟩
  · match hi : s.inbox with
    | [] =>
      match hd : dueStep s with
      | none => exact .inr (.inl ⟨s, by simp [step, fetch, ha, hi, hd], rfl, Nat.le_refl _⟩)
      | some (i, u) =>
        refine .inl ⟨i, u, by simp [step, fetch, ha, hi, hd], ?_⟩
        unfold dueStep at hd
        split at hd <;> simp at hd <;> obtain ⟨-, rfl⟩ := hd <;> try exact ⟨rfl, Nat.le_refl _⟩
        unfold dropDraw; split <;> exact ⟨rfl, Nat.le_refl _⟩
    | .wire t bs :: rest => exact widen (wire t bs rest (by unfold fetch; rw [if_neg ha, hi]))
    | .openTx c dst src cmd p :: rest =>
      exact .inr (.inr (.inl ⟨c, dst, src, cmd, p, rest, by simp [step, fetch, ha, hi]⟩))
    | .call i :: rest =>
      by_cases hl : ∃ b t, i = .lineByte b t
      · obtain ⟨b, t, rfl⟩ := hl
        exact widen (wire t [b] rest (by unfold fetch; rw [if_neg ha, hi]))
      · have hf : fetch s = if s.txActive && !allowedDuringTransmit i then .answer (.refused .insideTransmit)
            else .run i { s with inbox := rest, lost := lostAfterCall i s } := by
          unfold fetch
          rw [if_neg ha, hi]
          split
          · simp_all
          · simp_all
          · simp_all
          · simp_all
          · simp_all
        by_cases hc : s.txActive && !allowedDuringTransmit i
        · exact .inr (.inr (.inr (by unfold step; rw [hf, if_pos hc])))
        · refine .inl ⟨i, _, by unfold step; rw [hf, if_neg hc], rfl, ?_⟩
          show lostAfterCall i s ≤ s.lost
          unfold lostAfterCall; split <;> omega

/-- What losing a byte keeps, and every LINEBYTE that answers, the arrival of any number of bytes keeps. -/
theorem deliver_keeps {P : State → Prop} {now : Word32} (hl : ∀ s : State, P s → P { s with lost := s.lost - 1 })
    (hb : ∀ (b : Byte) (s t : State), P s → lineArrival b now s = .next t → P t) (bs : List Byte) {s t : State}
    (hs : P s) (h : deliver bs now s = .next t) : P t := by
  induction bs generalizing s with
  | nil => cases h; exact hs
  | cons b bs ih =>
    unfold deliver at h
    split at h
    · exact ih (hl s hs) h
    · obtain ⟨u, hu, h⟩ := andThen_eq_next h
      exact ih (hb b s u hs hu) h

/-- With the gate open, the bytes marked as lost go first, and nothing else happens with them (43 R216). -/
theorem deliver_lost (bs : List Byte) (now : Word32) (k : Nat) (s : State) (hg : gateClosed s = false)
    (hk : k ≤ bs.length) : deliver bs now { s with lost := k } = deliver (bs.drop k) now { s with lost := 0 } := by
  induction k generalizing bs with
  | zero => rfl
  | succ k ih =>
    match bs, hk with
    | b :: bs, hk =>
      have ho : overtaken { s with lost := k + 1 } = true := by simpa [overtaken, gateClosed] using hg
      rw [deliver, if_pos ho]
      exact ih bs (by simpa using hk)

end Sys2Proof.Machine
end

