-- ==== Sys2Proof/Tests/Slice0.lean ====
section
/-! SUPPORT. Tests: ill-formed terms refused, words written out from the spec's encodings, one or two small steps per
instruction with expected values from 95_test_vectors.md or from the rule named, and for every statement with
hypotheses a concrete case that meets them. -/

namespace Sys2Proof.Tests

set_option Elab.async false

open Sys2Proof Sys2Proof.Machine

/-- A listening node in Idle with the given address, version 1.2.3 build 4, and one draw `ok` waiting. -/
def node (a : Byte) : State := { State.reset with myAddr := a, version := ⟨1, 2, 3, 4⟩, draws := [⟨.ok, 0⟩] }

/-- The same node, with a transmission of the frame E2 at the given position. -/
def sending (p : Phase) : State :=
  { node 0x02 with
    phase := p, rxSuppress := suppressAt p, drive := driveAt p, txActive := activeAt p
    txFrame := [0xAA, 0x10, 0x02, 0x02, 0x00, 0xA4, 0x44, 0x55] }

/-- A node that has stored the bytes `bs` of a frame, with the length byte `n` latched, at reading 0. -/
def holding (bs : List Byte) (n : Byte) : State :=
  { node 0x02 with buf := storeFrom [] 0 bs, idx := bs.length, expLen := n }

/-- Whether an operation answers a next state of which `f` holds. -/
def after (r : Res) (f : State → Bool) : Bool :=
  match r with
  | .next t => f t
  | .fault _ | .refused _ => false

/-- Whether an operation is refused for the reason `x`. -/
def refusedFor (r : Res) (x : Refusal) : Bool :=
  match r with
  | .refused y => y = x
  | .next _ | .fault _ => false

/-- The bytes of the ping of 95_test_vectors.md S3, without the last. -/
def pingHead : List Byte := [0xAA, 0x02, 0x10, 0x01, 0x00, 0x01, 0xC9]

/-- Fields of a frame from 0x10 to 0x02 without payload. -/
def fields (crc : Word16) : FrameFields := ⟨0x02, 0x10, [], crc, 0x55⟩

/-- A request packet without payload (its checksum is read by no handler). -/
def packet (dst cmd : Byte) : Packet := ⟨dst, 0x10, cmd, [], 0⟩

/-! ## An ill-formed term for each check -/

theorem test_wf_frame_payload : wellFormed (.fPing ⟨2, 16, List.replicate 256 0, 0, 0⟩) = false := by decide +kernel
theorem test_wf_unassigned_payload :
    wellFormed (.fUnassignedCmd 0x99 ⟨2, 16, List.replicate 256 0, 0, 0⟩) = false := by decide +kernel
theorem test_wf_unassigned_code : wellFormed (.fUnassignedCmd 0x41 (fields 0)) = false := by decide +kernel
theorem test_wf_encode : wellFormed (.encode 1 2 3 (List.replicate 251 0)) = false := by decide +kernel
theorem test_wf_decode : wellFormed (.decode [0xAA, 2, 16, 1, 5, 1, 0xC9, 0x55]) = false := by decide +kernel
theorem test_wf_dispatch : wellFormed (.dispatch ⟨2, 16, 1, List.replicate 256 0, 0⟩) = false := by decide +kernel
theorem test_wf_ping : wellFormed (.ping (packet 2 0x02)) = false := by decide +kernel
theorem test_wf_getver : wellFormed (.getVer (packet 2 0x01)) = false := by decide +kernel
theorem test_wf_heartbeat : wellFormed (.heartbeat (packet 2 0x03)) = false := by decide +kernel
theorem test_wf_getstatus : wellFormed (.getStatus (packet 2 0x05)) = false := by decide +kernel
theorem test_wf_exthandler : wellFormed (.extHandler 0 (packet 2 0x21)) = false := by decide +kernel
theorem test_wf_reset : wellFormed (.reset ⟨0x00, ⟨0, 0, 0, 0⟩, []⟩) = false := by decide +kernel

/-! ## Words written out from 30_encoding.md R90 and R100 -/

theorem test_word_ping : decode [0xAA, 0x02, 0x10, 0x01, 0x00, 0x01, 0xC9, 0x55] =
    .ok (.fPing ⟨0x02, 0x10, [], 0xC901, 0x55⟩, []) := by decide +kernel
theorem test_word_ping_resp : decode [0xAA, 0x10, 0x02, 0x02, 0x00, 0xA4, 0x44, 0x55] =
    .ok (.fPingResp ⟨0x10, 0x02, [], 0x44A4, 0x55⟩, []) := by decide +kernel
theorem test_word_getver : decode [0xAA, 0x02, 0x10, 0x03, 0x00, 0x00, 0xA9, 0x55] =
    .ok (.fGetVer ⟨0x02, 0x10, [], 0xA900, 0x55⟩, []) := by decide +kernel
theorem test_word_getver_resp :
    decode [0xAA, 0x10, 0x02, 0x04, 0x08, 0x01, 0x02, 0x03, 0x04, 0x02, 0x00, 0x00, 0x00, 0x9A, 0x17, 0x55] =
      .ok (.fGetVerResp ⟨0x10, 0x02, [1, 2, 3, 4, 2, 0, 0, 0], 0x179A, 0x55⟩, []) := by decide +kernel
theorem test_word_heartbeat : decode [0xAA, 0x00, 0x10, 0x05, 0x00, 0x02, 0xB1, 0x55] =
    .ok (.fHeartbeat ⟨0x00, 0x10, [], 0xB102, 0x55⟩, []) := by decide +kernel
theorem test_word_heartbeat_resp : decode [0xAA, 0x10, 0x02, 0x06, 0x02, 0x02, 0x64, 0xDA, 0x88, 0x55] =
    .ok (.fHeartbeatResp ⟨0x10, 0x02, [0x02, 0x64], 0x88DA, 0x55⟩, []) := by decide +kernel
theorem test_word_getstatus : decode [0xAA, 0x03, 0x10, 0x10, 0x00, 0x0C, 0x65, 0x55] =
    .ok (.fGetStatus ⟨0x03, 0x10, [], 0x650C, 0x55⟩, []) := by decide +kernel
theorem test_word_getstatus_resp :
    decode [0xAA, 0x10, 0x02, 0x11, 0x10, 0x02, 0x64, 0x4D, 0x0E, 0x00, 0x00, 0x01, 0x00, 0x00, 0x00, 0x03, 0x00, 0x00,
        0x00, 0x03, 0x00, 0x28, 0x43, 0x55] =
      .ok (.fGetStatusResp
        ⟨0x10, 0x02, [0x02, 0x64, 0x4D, 0x0E, 0, 0, 1, 0, 0, 0, 3, 0, 0, 0, 3, 0], 0x4328, 0x55⟩, []) := by
  decide +kernel
theorem test_word_read_din : decode [0xAA, 0x01, 0x10, 0x20, 0x01, 0x7F, 0x34, 0x12, 0x55] =
    .ok (.fReadDin ⟨0x01, 0x10, [0x7F], 0x1234, 0x55⟩, []) := by decide +kernel
theorem test_word_read_din_resp : decode [0xAA, 0x10, 0x01, 0x21, 0x01, 0x80, 0x34, 0x12, 0x55] =
    .ok (.fReadDinResp ⟨0x10, 0x01, [0x80], 0x1234, 0x55⟩, []) := by decide +kernel
theorem test_word_write_dout : decode [0xAA, 0x01, 0x10, 0x30, 0x03, 0xAA, 0x55, 0x00, 0x56, 0x60, 0x55] =
    .ok (.fWriteDout ⟨0x01, 0x10, [0xAA, 0x55, 0x00], 0x6056, 0x55⟩, []) := by decide +kernel
theorem test_word_write_dout_resp : decode [0xAA, 0x10, 0x01, 0x31, 0x00, 0x34, 0x12, 0x55] =
    .ok (.fWriteDoutResp ⟨0x10, 0x01, [], 0x1234, 0x55⟩, []) := by decide +kernel
theorem test_word_read_dout : decode [0xAA, 0x01, 0x10, 0x32, 0x00, 0x34, 0x12, 0x55] =
    .ok (.fReadDout ⟨0x01, 0x10, [], 0x1234, 0x55⟩, []) := by decide +kernel
theorem test_word_read_analog : decode [0xAA, 0x01, 0x10, 0x40, 0x00, 0x34, 0x12, 0x55] =
    .ok (.fReadAnalog ⟨0x01, 0x10, [], 0x1234, 0x55⟩, []) := by decide +kernel
theorem test_word_read_analog_resp : decode [0xAA, 0x10, 0x01, 0x41, 0x02, 0xFE, 0xFF, 0x34, 0x12, 0x55] =
    .ok (.fReadAnalogResp ⟨0x10, 0x01, [0xFE, 0xFF], 0x1234, 0x55⟩, []) := by decide +kernel
theorem test_word_error_resp : decode [0xAA, 0x10, 0x02, 0xFF, 0x02, 0x03, 0x02, 0x6B, 0xAE, 0x55] =
    .ok (.fErrorResp ⟨0x10, 0x02, [0x03, 0x02], 0xAE6B, 0x55⟩, []) := by decide +kernel
/-- Also the bytes after the frame come back, and a wrong end byte is an operand. -/
theorem test_word_unassigned : decode [0xAA, 0x02, 0x10, 0x99, 0x00, 0x6A, 0x09, 0x54, 0xAA] =
    .ok (.fUnassignedCmd 0x99 ⟨0x02, 0x10, [], 0x096A, 0x54⟩, [0xAA]) := by decide +kernel
theorem test_word_no_start : decode [0x55, 0x02, 0x10, 0x01, 0x00, 0x01, 0xC9, 0x55] = .error .noStartMarker := by
  decide +kernel
theorem test_word_short : decode [0xAA, 0x02, 0x10, 0x01, 0x01, 0x01, 0xC9, 0x55] = .error .truncated := by
  decide +kernel
/-- The table's five bytes of F.WRITE_DOUT with a length of 1, offset 0 in the lowest bits. -/
theorem test_table_word : decodeTableWord 40 0x01301001AA =
    some (.fWriteDout ⟨0x01, 0x10, [0x00], 0x0000, 0x00⟩) := by decide +kernel
/-- The same five bytes as the table writes them, offset 0 leftmost. -/
theorem test_table_word_leftmost : decodeTableWord 40 0xAA01103001 =
    some (.fWriteDout ⟨0x01, 0x10, [0x00], 0x0000, 0x00⟩) := by decide +kernel
/-- The placed frame is what the first step after reset runs: its last byte is no end marker (42 R181). -/
theorem test_fetch_word : after (step (State.reset.withFetchWord 40 0x00011001AA)) (fun t =>
    decide (t.errCount = 1 ∧ t.idx = 0 ∧ t.inbox = [])) = true := by decide +kernel

/-! ## FRAME rows: arrival of a whole frame (95 S3, S4, P3; 44 R250; checksums from R97 where 95 gives none) -/

/-- S3. -/
theorem test_f_ping : after (exec (.fPing (fields 0xC901)) (node 0x02)) (fun t =>
    decide (t.lineTx = [0xAA, 0x10, 0x02, 0x02, 0x00, 0xA4, 0x44, 0x55] ∧ t.rxCount = 1 ∧ t.txCount = 1 ∧
      t.errCount = 0 ∧ t.idx = 0)) = true := by decide +kernel
/-- P3 step 1: a bad end marker. -/
theorem test_f_ping_bad_end : after (exec (.fPing ⟨0x02, 0x10, [], 0xC901, 0x54⟩) (node 0x02)) (fun t =>
    decide (t.lineTx = [] ∧ t.rxCount = 0 ∧ t.txCount = 0 ∧ t.errCount = 1)) = true := by decide +kernel
/-- E11, answered by E9. -/
theorem test_f_getver : after (exec (.fGetVer (fields 0xA900)) (node 0x02)) (fun t =>
    decide (t.lineTx = [0xAA, 0x10, 0x02, 0x04, 0x08, 0x01, 0x02, 0x03, 0x04, 0x02, 0, 0, 0, 0x9A, 0x17, 0x55])) =
      true := by decide +kernel
/-- E6, a broadcast, answered by E8. -/
theorem test_f_heartbeat : after (exec (.fHeartbeat ⟨0x00, 0x10, [], 0xB102, 0x55⟩) (node 0x02)) (fun t =>
    decide (t.lineTx = [0xAA, 0x10, 0x02, 0x06, 0x02, 0x02, 0x64, 0xDA, 0x88, 0x55] ∧ t.rxCount = 1)) = true := by
  decide +kernel
/-- P3 step 6. -/
theorem test_f_getstatus :
    after (exec (.fGetStatus (fields 0x990D)) { node 0x02 with uptimeS := 3661, errCount := 1, rxCount := 2, txCount := 3 })
      (fun t => decide (t.lineTx = [0xAA, 0x10, 0x02, 0x11, 0x10, 0x02, 0x64, 0x4D, 0x0E, 0x00, 0x00, 0x01, 0x00, 0x00,
        0x00, 0x03, 0x00, 0x00, 0x00, 0x03, 0x00, 0x28, 0x43, 0x55] ∧ t.txCount = 4 ∧ t.rxCount = 3)) = true := by
  decide +kernel
/-- S4: E3. -/
theorem test_f_unassigned : after (exec (.fUnassignedCmd 0x99 (fields 0x096A)) (node 0x02)) (fun t =>
    decide (t.lineTx = [0xAA, 0x10, 0x02, 0xFF, 0x02, 0x03, 0x02, 0x6B, 0xAE, 0x55] ∧ t.rxCount = 1 ∧ t.txCount = 1)) =
      true := by decide +kernel

/-- A code without a handler, answered by E3 (44 R250; M5). -/
def answeredByE3 (i : Instr) : Bool :=
  after (exec i (node 0x02)) (fun t =>
    decide (t.lineTx = [0xAA, 0x10, 0x02, 0xFF, 0x02, 0x03, 0x02, 0x6B, 0xAE, 0x55] ∧ t.rxCount = 1))

theorem test_f_ping_resp : answeredByE3 (.fPingResp (fields (crcOf [2, 16, 0x02, 0]))) = true := by decide +kernel
theorem test_f_getver_resp : answeredByE3 (.fGetVerResp (fields (crcOf [2, 16, 0x04, 0]))) = true := by decide +kernel
theorem test_f_heartbeat_resp : answeredByE3 (.fHeartbeatResp (fields (crcOf [2, 16, 0x06, 0]))) = true := by
  decide +kernel
theorem test_f_getstatus_resp : answeredByE3 (.fGetStatusResp (fields (crcOf [2, 16, 0x11, 0]))) = true := by
  decide +kernel
theorem test_f_read_din_resp : answeredByE3 (.fReadDinResp (fields (crcOf [2, 16, 0x21, 0]))) = true := by
  decide +kernel
theorem test_f_write_dout_resp : answeredByE3 (.fWriteDoutResp (fields (crcOf [2, 16, 0x31, 0]))) = true := by
  decide +kernel
theorem test_f_read_analog_resp : answeredByE3 (.fReadAnalogResp (fields (crcOf [2, 16, 0x41, 0]))) = true := by
  decide +kernel
theorem test_f_error_resp : answeredByE3 (.fErrorResp (fields (crcOf [2, 16, 0xFF, 0]))) = true := by decide +kernel
/-- The collaborators' commands, where no collaborator is registered (44 R235). -/
theorem test_f_read_din : answeredByE3 (.fReadDin (fields (crcOf [2, 16, 0x20, 0]))) = true := by decide +kernel
theorem test_f_read_dout : answeredByE3 (.fReadDout (fields (crcOf [2, 16, 0x32, 0]))) = true := by decide +kernel
theorem test_f_read_analog : answeredByE3 (.fReadAnalog (fields (crcOf [2, 16, 0x40, 0]))) = true := by
  decide +kernel
/-- The frame E7 at its node 0x01; the answer as in the variant of P4. -/
theorem test_f_write_dout :
    after (exec (.fWriteDout ⟨0x01, 0x10, [0xAA, 0x55, 0x00], 0x6056, 0x55⟩) (node 0x01)) (fun t =>
      decide (t.lineTx = [0xAA, 0x10, 0x01, 0xFF, 0x02, 0x03, 0x01, 0x6F, 0xAF, 0x55] ∧ t.rxCount = 1)) = true := by
  decide +kernel

/-! ## CRC Engine (95 section 2) -/

theorem test_crc16_check : after (exec (.crc16 [0x31, 0x32, 0x33, 0x34, 0x35, 0x36, 0x37, 0x38, 0x39]) State.reset)
    (fun t => decide (t.ret = .crc 0x4B37)) = true := by decide +kernel
theorem test_crc16_order : after (exec (.crc16 [0x01, 0x02]) State.reset) (fun t => decide (t.ret = .crc 0xE181)) = true ∧
    after (exec (.crc16 [0x02, 0x01]) State.reset) (fun t => decide (t.ret = .crc 0x10C1)) = true := by decide +kernel
theorem test_crc_init : after (exec .crcInit State.reset) (fun t => decide (t.crc = 0xFFFF)) = true := by
  decide +kernel
theorem test_crc_byte : after (exec (.crcByte 0x01) { State.reset with crc := 0xFFFF })
    (fun t => decide (t.crc = 0x807E)) = true := by decide +kernel
theorem test_crc_bit : after (exec (.crcBit false) { State.reset with crc := 0x7FFF })
    (fun t => decide (t.crc = 0x9FFE)) = true := by decide +kernel

/-! ## Packet Codec (95 section 3) -/

/-- E7. -/
theorem test_encode : after (exec (.encode 0x01 0x10 0x30 [0xAA, 0x55, 0x00]) State.reset) (fun t =>
    decide (t.ret = .frame [0xAA, 0x01, 0x10, 0x30, 0x03, 0xAA, 0x55, 0x00, 0x56, 0x60, 0x55])) = true := by
  decide +kernel
/-- E15. -/
theorem test_encode_long : after (exec (.encode 1 2 3 (List.replicate 251 0)) State.reset) (fun t =>
    decide (t.ret = .encodeFailure ∧ t.crc = 0)) = true := by decide +kernel
/-- D3v and D6v. -/
theorem test_decode : after (exec (.decode [0xAA, 0x02, 0x10, 0x01, 0x00, 0x00, 0xC9, 0x55]) State.reset)
      (fun t => decide (t.ret = .checksumMismatch 0x10)) = true ∧
    after (exec (.decode [0x00, 0x02, 0x10, 0x01, 0x00, 0x01, 0xC9, 0x00]) State.reset)
      (fun t => decide (t.ret = .packet ⟨0x02, 0x10, 0x01, [], 0xC901⟩)) = true := by decide +kernel
/-- D8v and D9v. -/
theorem test_decode_short : refusedFor (exec (.decode pingHead) State.reset) .decodeShort = true ∧
    refusedFor (exec (.decode [0xAA, 0x02, 0x10, 0x01, 0x05, 0x01, 0xC9, 0x55]) State.reset) .decodeShort = true := by
  decide +kernel

/-! ## Frame Assembler and gate (95 sections 4, 5) -/

/-- A9 and A10: a gap of 500 is none, 501 is one. -/
theorem test_rxbyte_gap : after (exec (.rxByte 0x01 500) (holding [0xAA, 2, 16] 0))
      (fun t => decide (t.idx = 4 ∧ Memory.read t.buf 3 = 0x01)) = true ∧
    after (exec (.rxByte 0x01 501) (holding [0xAA, 2, 16] 0)) (fun t => decide (t.idx = 0 ∧ t.errCount = 0)) = true := by
  decide +kernel
/-- A14 and A15: a full buffer, within and after the gap. -/
theorem test_rxbyte_full : after (exec (.rxByte 0xAA 1) { node 0x02 with idx := 256, expLen := 250 })
      (fun t => decide (t.idx = 0 ∧ t.errCount = 1)) = true ∧
    after (exec (.rxByte 0xAA 600) { node 0x02 with idx := 256, expLen := 250 })
      (fun t => decide (t.idx = 1 ∧ t.errCount = 0)) = true := by decide +kernel
/-- B5 and B6. -/
theorem test_linebyte : after (exec (.lineByte 0xAA 7) (sending .h)) (fun t => decide (t.idx = 0 ∧ t.lastTs = 0)) = true ∧
    after (exec (.lineByte 0xAA 7) (node 0x02)) (fun t => decide (t.idx = 1 ∧ t.lastTs = 7)) = true := by decide +kernel

/-! ## Bus Direction Controller (95 section 5; 43 R204 to R212) -/

/-- B1. -/
theorem test_txreq : after (exec (.txReq 0x10 0x02 0x02 []) (node 0x02)) (fun t =>
    decide (t.lineTx = [0xAA, 0x10, 0x02, 0x02, 0x00, 0xA4, 0x44, 0x55] ∧ t.ret = .tx .ok ∧ t.phase = .listen ∧
      t.drive = false ∧ t.txCount = 0)) = true := by decide +kernel
/-- B7. -/
theorem test_txreq_reentrant : refusedFor (exec (.txReq 0x10 0x02 0x02 []) (sending .e)) .reentrantTx = true := by
  decide +kernel
theorem test_tx_a : after (exec .txA (sending .a)) (fun t => decide (t = sending .b)) = true := by decide +kernel
theorem test_tx_b : after (exec .txB (sending .b)) (fun t => decide (t = sending .c)) = true := by decide +kernel
theorem test_tx_c : after (exec .txC (sending .c)) (fun t => decide (t = sending .d)) = true := by decide +kernel
theorem test_tx_d : after (exec .txD (sending .d)) (fun t =>
    decide (t.lineTx = [0xAA, 0x10, 0x02, 0x02, 0x00, 0xA4, 0x44, 0x55] ∧ t.phase = .e)) = true := by decide +kernel
theorem test_tx_e : after (exec (.txE (.failure 2 (some 0x7F))) { sending .e with inFlight := [0xAA, 0x10, 0x02] })
    (fun t => decide (t.onLine = [0xAA, 0x7F] ∧ t.txOutcome = .txFail ∧ t.phase = .f)) = true := by decide +kernel
theorem test_tx_f : after (exec .txF (sending .f)) (fun t => decide (t = sending .g)) = true := by decide +kernel
theorem test_tx_g : after (exec .txG (sending .g)) (fun t => decide (t = sending .h)) = true := by decide +kernel
theorem test_tx_h : after (exec .txH (sending .h)) (fun t => decide (t = sending .listen)) = true := by decide +kernel
/-- 10 R30: a step out of its turn. -/
theorem test_tx_turn : refusedFor (exec .txB (sending .a)) .txStepOutOfTurn = true := by decide +kernel

/-! ## Dispatcher and status register (95 section 6) -/

/-- M1 and M3. -/
theorem test_dispatch : after (exec (.dispatch (packet 0x02 0x01)) (node 0x02)) (fun t =>
      decide (t.rxCount = 1 ∧ t.txCount = 1 ∧ t.lineTx = [0xAA, 0x10, 0x02, 0x02, 0x00, 0xA4, 0x44, 0x55])) = true ∧
    exec (.dispatch (packet 0x03 0x01)) (node 0x02) = .next (node 0x02) := by
  exact ⟨by decide +kernel, rfl⟩
/-- M4. -/
theorem test_dispatch_missing : after (exec (.dispatch (packet 0x02 0x99)) (node 0x02)) (fun t =>
    decide (t.rxCount = 1 ∧ t.lineTx = [0xAA, 0x10, 0x02, 0xFF, 0x02, 0x03, 0x02, 0x6B, 0xAE, 0x55])) = true := by
  decide +kernel
theorem test_errresp : after (exec (.errResp 0x10 .invalidCommand) (node 0x02)) (fun t =>
    decide (t.lineTx = [0xAA, 0x10, 0x02, 0xFF, 0x02, 0x03, 0x02, 0x6B, 0xAE, 0x55])) = true := by decide +kernel
/-- M6. -/
theorem test_crcerrresp : after (exec (.crcErrResp 0x10) (node 0x02)) (fun t =>
    decide (t.lineTx = [0xAA, 0x10, 0x02, 0xFF, 0x02, 0x01, 0x02, 0x6A, 0xCE, 0x55] ∧ t.rxCount = 0 ∧ t.errCount = 0 ∧
      t.txCount = 1)) = true := by decide +kernel
theorem test_ping : after (exec (.ping (packet 0x02 0x01)) (node 0x02)) (fun t =>
    decide (t.lineTx = [0xAA, 0x10, 0x02, 0x02, 0x00, 0xA4, 0x44, 0x55] ∧ t.rxCount = 0)) = true := by decide +kernel
/-- M7. -/
theorem test_getver : after (exec (.getVer (packet 0x02 0x03)) (node 0x02)) (fun t =>
    decide (t.lineTx = [0xAA, 0x10, 0x02, 0x04, 0x08, 0x01, 0x02, 0x03, 0x04, 0x02, 0, 0, 0, 0x9A, 0x17, 0x55])) =
      true := by decide +kernel
/-- M11. -/
theorem test_heartbeat : after (exec (.heartbeat (packet 0x02 0x05)) { node 0x02 with health := 37 }) (fun t =>
    decide (t.lineTx = [0xAA, 0x10, 0x02, 0x06, 0x02, 0x02, 0x25, 0x1A, 0xB8, 0x55])) = true := by decide +kernel
/-- M8, from where the handler runs. -/
theorem test_getstatus :
    after (exec (.getStatus (packet 0x02 0x10))
        { node 0x02 with uptimeS := 3661, errCount := 1, rxCount := 3, txCount := 3 })
      (fun t => decide (t.lineTx = [0xAA, 0x10, 0x02, 0x11, 0x10, 0x02, 0x64, 0x4D, 0x0E, 0x00, 0x00, 0x01, 0x00, 0x00,
        0x00, 0x03, 0x00, 0x00, 0x00, 0x03, 0x00, 0x28, 0x43, 0x55] ∧ t.txCount = 4)) = true := by decide +kernel
/-- 44 R243: whatever the collaborator replies, the handler answers, and never counts a reception. -/
theorem test_exthandler : ∃ t, exec (.extHandler 7 (packet 0x02 0x30)) (node 0x02) = .next t ∧ t.rxCount = 0 := by
  show ∃ t, externalReply 7 (packet 0x02 0x30) (node 0x02) = .next t ∧ t.rxCount = 0
  unfold externalReply
  split
  · exact ⟨_, rfl, rfl⟩
  · exact ⟨_, transmit_of_inactive _ _ _ _ _ rfl, afterSend_rxCount ..⟩
/-- M12, with the get-version handler in place of the ping's. -/
theorem test_register : after (exec (.register 0x01 .getVersion) (node 0x02)) (fun u =>
    after (exec (.dispatch (packet 0x02 0x01)) u) (fun t =>
      decide (t.lineTx = [0xAA, 0x10, 0x02, 0x04, 0x08, 0x01, 0x02, 0x03, 0x04, 0x02, 0, 0, 0, 0x9A, 0x17, 0x55]))) =
      true := by decide +kernel
/-- P5 and 44 R246: ok. -/
theorem test_send : after (exec (.send 0x10 0x02 0x06 [0x02, 0x64]) (node 0x02)) (fun t =>
    decide (t.lineTx = [0xAA, 0x10, 0x02, 0x06, 0x02, 0x02, 0x64, 0xDA, 0x88, 0x55] ∧ t.txCount = 1)) = true := by
  decide +kernel
/-- B2: failure. -/
theorem test_send_failure : after (exec (.send 0x10 0x02 0x02 []) { node 0x02 with draws := [⟨.failure 3 none, 0⟩] }) (fun t =>
    decide (t.onLine = [0xAA, 0x10, 0x02] ∧ t.errCount = 1 ∧ t.txCount = 0 ∧ t.ret = .tx .txFail ∧ t.drive = false)) =
      true := by decide +kernel
/-- M9 and M10. -/
theorem test_tick : after (exec (.tick 3661999) (node 0x02)) (fun t => decide (t.uptimeS = 3661)) = true ∧
    after (exec (.tick 999) { node 0x02 with uptimeS := 5 }) (fun t => decide (t.uptimeS = 0)) = true := by decide +kernel
theorem test_sethealth : after (exec (.setHealth 0xFF) (node 0x02)) (fun t => decide (t.health = 0xFF)) = true := by
  decide +kernel
/-- 70 R310: the last registration for a code wins over a built-in. -/
theorem test_reset : after (exec (.reset ⟨0x03, ⟨9, 8, 7, 6⟩, [(0x01, .external 4), (0x20, .external 5)]⟩)
      { node 0x02 with rxCount := 7, idx := 3 }) (fun t =>
    decide (t.rxCount = 0 ∧ t.idx = 0 ∧ t.myAddr = 0x03 ∧ t.health = 100 ∧
      handlerOf 0x01 t = some (.external 4) ∧ handlerOf 0x03 t = some .getVersion ∧
      handlerOf 0x20 t = some (.external 5) ∧ handlerOf 0x21 t = none)) = true := by decide +kernel
/-- 93 U12. -/
theorem test_reset_broadcast : refusedFor (exec (.reset ⟨0x00, ⟨0, 0, 0, 0⟩, []⟩) (node 0x02)) .broadcastIdentity =
    true := by decide +kernel

/-! ## The hypotheses of the statements are met -/

theorem witness_CrcInitBeginsEveryComputation : (List.replicate 250 (0 : Byte)).length ≤ 250 ∧
    decodeReady (pingHead ++ [0x55]) = true := by decide +kernel
theorem witness_EncodeBuildsTheFrame : (List.replicate 250 (0 : Byte)).length ≤ 250 ∧
    250 < (List.replicate 251 (0 : Byte)).length := by decide +kernel
theorem witness_OverlongPayloadChangesNothing : 250 < (List.replicate 251 (0 : Byte)).length ∧
    (node 0x02).txActive = false := by decide +kernel
/-- A good ping, and one with a wrong high checksum byte (95 D4v). -/
theorem witness_DecodeExtractsAndCompares :
    (let bs : List Byte := pingHead ++ [0x55]
     8 ≤ bs.length ∧ 5 + (bs.getD 4 0).toNat + 3 ≤ bs.length ∧ computedCrc bs = receivedCrc bs) ∧
    (let bs : List Byte := [0xAA, 0x02, 0x10, 0x01, 0x00, 0x01, 0xC8, 0x55]
     8 ≤ bs.length ∧ 5 + (bs.getD 4 0).toNat + 3 ≤ bs.length ∧ computedCrc bs ≠ receivedCrc bs) := by decide +kernel
theorem witness_DecodeOfEncodeRoundTrip : ([] : List Byte).length ≤ 250 ∧
    (List.replicate 250 (0xAA : Byte)).length ≤ 250 := by decide +kernel
theorem witness_DecodeIgnoresMarkersAndExcess : decodeReady [0x00, 0x02, 0x10, 0x01, 0x00, 0x01, 0xC9, 0x00] = true := by
  decide +kernel
/-- The first and the last offset the statement speaks of (95 D5v, D4v). -/
theorem witness_SingleByteErrorIsDetected :
    let f : List Byte := [0xAA] ++ [0x02, 0x10, 0x01, 0x00] ++ [0x01, 0xC9] ++ [0x55]
    ([] : List Byte).length ≤ 250 ∧ 1 ≤ 1 ∧ 1 ≤ 6 + 0 ∧ 1 ≠ 4 ∧ (0x03 : Byte) ≠ f.getD 1 0 ∧ 6 ≤ 6 + 0 ∧
      (0xC8 : Byte) ≠ f.getD 6 0 ∧ (crcOf [0x02, 0x10, 0x01, 0x00]) = 0xC901 := by decide +kernel
theorem witness_DecodeReadsBackEveryFrame : wellFormed (.fUnassignedCmd 0x99 (fields 0x096A)) = true ∧
    encode (.fUnassignedCmd 0x99 (fields 0x096A)) = some [0xAA, 0x02, 0x10, 0x99, 0x00, 0x6A, 0x09, 0x55] ∧
    wellFormed (.fReadAnalogResp ⟨2, 16, List.replicate 255 0, 0, 0⟩) = true := by decide +kernel
theorem witness_DecodeReadsOnlyEncodings :
    decode [0xAA, 0x02, 0x10, 0x99, 0x00, 0x6A, 0x09, 0x54, 0xAA] =
      .ok (.fUnassignedCmd 0x99 ⟨0x02, 0x10, [], 0x096A, 0x54⟩, [0xAA]) := test_word_unassigned
/-- A step (a) that is due, a frame, a byte that starts none, a called LINEBYTE, bytes overtaken by a response, a call while
listening, one that may and two that may not run during a sequence (a boot among them), a request opened in steps, a
step that is due, and none. -/
theorem witness_StepRunsTheFetchedInstruction :
    (sending .a).phase = .a ∧ (node 0x02).phase ≠ .a ∧ decode (pingHead ++ [0x55]) = .ok (.fPing (fields 0xC901), []) ∧
    decode [0x00, 0x13] = .error .noStartMarker ∧ overtaken (node 0x02) = false ∧
    ({ node 0x02 with inbox := [.call (.lineByte 0xAA 7)] } : State).inbox = .call (.lineByte 0xAA 7) :: [] ∧
    overtaken { node 0x02 with lost := 8 } = true ∧ (node 0x02).txActive = false ∧
    (∀ b t, Instr.tick 0 ≠ .lineByte b t) ∧
    (sending .e).phase ≠ .a ∧ allowedDuringTransmit (.tick 0) = true ∧ (sending .e).txActive = true ∧
    step { sending .e with inbox := [.call (.register 0x20 .ping)] } = .refused .insideTransmit ∧
    step { sending .e with inbox := [.call (.reset ⟨0x03, ⟨0, 0, 0, 0⟩, []⟩)] } = .refused .insideTransmit ∧
    ({ node 0x02 with inbox := [.openTx .send 0x10 0x02 0x02 []] } : State).inbox = .openTx .send 0x10 0x02 0x02 [] :: [] ∧
    dueStep (sending .e) = some (.txE .ok, { sending .e with draws := [] }) ∧ (sending .e).inbox = [] ∧
    (node 0x02).inbox = [] ∧ (node 0x02).phase = .listen :=
  ⟨rfl, by decide, by decide +kernel, by decide +kernel, rfl, rfl, rfl, rfl, nofun, by decide, rfl, rfl, rfl, rfl, rfl, rfl,
    rfl, rfl, rfl⟩
/-- R321: the ping of S3 arrives while the node answers an earlier one, wholly, or but for its last byte; the latter is
then discarded in Idle. -/
theorem test_overtaken :
    step { node 0x02 with lost := 8, inbox := [.wire 5 (pingHead ++ [0x55])] } = .next { node 0x02 with clock := 5 } ∧
    step { node 0x02 with lost := 7, inbox := [.wire 5 (pingHead ++ [0x55])] } =
      .next { node 0x02 with clock := 5, inbox := [.wire 5 [0x55]] } ∧
    after (exec (.ping (packet 0x02 0x01)) { node 0x02 with draws := [⟨.ok, 7⟩] }) (fun t => decide (t.lost = 7)) =
      true := ⟨rfl, rfl, by decide +kernel⟩
/-- A10 and A15. -/
theorem witness_IdleTimeoutActsBeforeTheByte :
    0 < (holding [0xAA, 2, 16] 0).idx ∧ 500 < ((501 : Word32) - (holding [0xAA, 2, 16] 0).lastTs).toNat ∧
    ({ node 0x02 with idx := 256 } : State).idx = 256 ∧ 500 < ((600 : Word32) - (node 0x02).lastTs).toNat := by
  decide +kernel
theorem witness_IdleDiscardsOtherBytes : (node 0x02).idx = 0 ∧ (0x55 : Byte) ≠ 0xAA := by decide +kernel
theorem witness_StartMarkerOpensAFrame : (node 0x02).idx = 0 ∧ Memory.wf (node 0x02).buf = true ∧ (255 : Nat) ≠ 0 := by
  decide +kernel
/-- A5 at the length byte, A17 at the last index, A9 at the gap's bound. -/
theorem witness_EveryFurtherByteIsAppended :
    (let s := holding [0xAA, 2, 16, 1] 9
     Memory.wf s.buf = true ∧ 1 ≤ s.idx ∧ s.idx = 4 ∧ ((500 : Word32) - s.lastTs).toNat ≤ 500 ∧
       ¬ (8 ≤ s.idx + 1 ∧ 5 + (0x07 : Byte).toNat + 3 ≤ s.idx + 1)) ∧
    (let s : State := { holding [0xAA] 249 with idx := 255 }
     Memory.wf s.buf = true ∧ 1 ≤ s.idx ∧ s.idx ≤ 255 ∧ ((1 : Word32) - s.lastTs).toNat ≤ 500 ∧
       ¬ (8 ≤ s.idx + 1 ∧ 5 + s.expLen.toNat + 3 ≤ s.idx + 1)) := by decide +kernel
/-- A13. -/
theorem witness_FullBufferOverflows :
    ({ node 0x02 with idx := 256 } : State).idx = 256 ∧ ((500 : Word32) - (node 0x02).lastTs).toNat ≤ 500 := by
  decide +kernel
/-- A7, and the same at the last index (A16 with another byte). -/
theorem witness_BadEndMarkerDiscardsTheFrame :
    (let s := holding pingHead 0
     1 ≤ s.idx ∧ s.idx ≤ 255 ∧ ((1 : Word32) - s.lastTs).toNat ≤ 500 ∧ 8 ≤ s.idx + 1 ∧
       5 + s.expLen.toNat + 3 ≤ s.idx + 1 ∧ (0x54 : Byte) ≠ 0x55 ∧ Memory.wf s.buf = true) ∧
    (let s : State := { holding pingHead 248 with idx := 255 }
     s.idx ≤ 255 ∧ 5 + s.expLen.toNat + 3 ≤ s.idx + 1) := by decide +kernel
/-- A6, with a good and with a wrong checksum. -/
theorem witness_GoodEndMarkerHandsTheFrameOver :
    (let s := holding pingHead 0
     1 ≤ s.idx ∧ s.idx ≤ 255 ∧ ((1 : Word32) - s.lastTs).toNat ≤ 500 ∧ 8 ≤ s.idx + 1 ∧
       5 + s.expLen.toNat + 3 ≤ s.idx + 1 ∧ Memory.wf s.buf = true ∧ s.txActive = false) ∧
    packetDecode ((List.range 8).map (Memory.read (Memory.write (holding pingHead 0).buf 7 0x55))) =
      .valid ⟨0x02, 0x10, 0x01, [], 0xC901⟩ ∧
    packetDecode ((List.range 8).map (Memory.read (Memory.write
      (holding [0xAA, 0x02, 0x10, 0x01, 0x00, 0x00, 0xC9] 0).buf 7 0x55))) = .checksumMismatch 0x10 := by decide +kernel
/-- At the bound, index 256, and with nothing in flight. -/
theorem witness_RxByteNeverOverrunsTheBuffer :
    (node 0x02).txActive = false ∧
    exec (.rxByte 0xAA 1) { node 0x02 with idx := 256 } =
      .next { node 0x02 with idx := 0, errCount := 1, lastTs := 1 } := ⟨rfl, rfl⟩
/-- Within the gap and over it, at the smallest length. -/
theorem witness_LengthOver248NeverCompletes :
    let s : State := { holding [0xAA, 2, 16, 1, 249] 249 with idx := 255 }
    5 ≤ s.idx ∧ s.idx ≤ 256 ∧ 249 ≤ s.expLen.toNat ∧
    after (exec (.rxByte 0x55 1) s) (fun t => decide (t.idx = 256)) = true ∧
    after (exec (.rxByte 0x55 501) s) (fun t => decide (t.idx = 0)) = true ∧
    after (exec (.rxByte 0xAA 501) s) (fun t => decide (t.idx = 1)) = true := by decide +kernel
theorem witness_BufferIsWrittenOnlyAtTheFillIndex :
    after (exec (.rxByte 0x07 1) (holding [0xAA, 2, 16, 1] 0)) (fun _ => true) = true ∧
    (4 : Nat) ≠ (arrive 1 (node 0x02)).idx ∧
    after (exec (.lineByte 0x07 1) (node 0x02)) (fun _ => true) = true ∧
    after (exec (.lineByte 0xAA 1) (sending .e)) (fun _ => true) = true ∧ (sending .e).rxSuppress = true := by
  decide +kernel
theorem witness_BytesAreDroppedWhileDriving : (sending .e).drive = true ∧
    encode (.fPing (fields 0xC901)) = some (pingHead ++ [0x55]) := by decide +kernel
theorem witness_LineByteReachesTheAssemblerWhenListening :
    (node 0x02).drive = false ∧ (node 0x02).rxSuppress = false ∧ (node 0x02).txActive = false ∧
    (sending .h).rxSuppress = true ∧ (sending .h).drive = false := by decide +kernel
theorem witness_TxReqRunsTheWholeSequence : (node 0x02).txActive = false ∧
    (List.replicate 250 (0 : Byte)).length ≤ 250 := by decide +kernel
theorem witness_SecondRequestIsRefused : (sending .a).txActive = true ∧ (sending .h).txActive = true ∧
    (sending .h).phase ≠ .a ∧
    ({ sending .h with inbox := [.openTx .txReq 0x10 0x02 0x02 []] } : State).inbox = .openTx .txReq 0x10 0x02 0x02 [] :: [] ∧
    (packet 0x02 0x01).dst = (sending .h).myAddr ∧ (packet 0x00 0x01).dst = 0x00 ∧
    Registry.find (sending .h).registry 0x10 = some .getStatus ∧ Registry.find (sending .h).registry 0x99 = none ∧
    Registry.find (Registry.put (sending .h).registry 0x20 (.external 7)) 0x20 = some (.external 7) := by decide +kernel
theorem witness_SuppressDriveWriteRelease : (sending .a).phase = .a ∧ (sending .b).phase = .b ∧
    (sending .d).phase = .d ∧ (sending .g).phase = .g ∧ (sending .b).rxSuppress = true ∧
    (sending .h).rxSuppress = true := by decide +kernel
theorem witness_WaitAndCompletionSteps : (sending .c).phase = .c ∧ (sending .f).phase = .f ∧
    (sending .e).phase = .e := by decide +kernel
theorem witness_ReenableStepRestoresListening : (sending .h).phase = .h ∧ (sending .h).drive = false ∧
    (sending .h).caller = none ∧ ({ sending .h with caller := some .txReq } : State).caller = some .txReq ∧
    ({ sending .h with caller := some .send } : State).caller = some .send ∧ (sending .h).txOutcome = .ok ∧
    ({ sending .h with caller := some .send, txOutcome := .txFail } : State).txOutcome = .txFail := by decide +kernel
theorem witness_StepsOutOfTurnAreRefused : (sending .b).phase ≠ .a ∧ (node 0x02).phase ≠ .a ∧ (node 0x02).phase ≠ .b ∧
    (node 0x02).phase ≠ .c ∧ (node 0x02).phase ≠ .d ∧ (node 0x02).phase ≠ .e ∧ (node 0x02).phase ≠ .f ∧
    (node 0x02).phase ≠ .g ∧ (node 0x02).phase ≠ .h := by decide +kernel
theorem witness_StepByStepEqualsOneTransition : Listening (node 0x02) ∧ (node 0x02).caller = none ∧
    (node 0x02).inbox = [] := by decide +kernel
theorem witness_SendCountsTheOutcomeOnce : (node 0x02).txActive = false ∧ ([] : List Byte).length ≤ 250 ∧
    nextDraw (node 0x02) = .ok ∧
    nextDraw { node 0x02 with draws := [⟨.failure 3 none, 0⟩] } = .failure 3 none := by decide +kernel
theorem witness_FilteredPacketChangesNothing : (packet 0x03 0x01).dst ≠ (node 0x02).myAddr ∧
    (packet 0x03 0x01).dst ≠ 0x00 ∧ (packet 0x02 0x01).dst = (node 0x02).myAddr ∧ (packet 0x00 0x01).dst = 0x00 ∧
    (node 0x02).txActive = false := by decide +kernel
theorem witness_DispatchCountsThenRunsTheHandler : (packet 0x02 0x01).dst = (node 0x02).myAddr ∧
    (packet 0x00 0x01).dst = 0x00 ∧ Registry.find (node 0x02).registry 0x01 = some .ping ∧
    Registry.find (node 0x02).registry 0x99 = none ∧ (node 0x02).txActive = false := by decide +kernel
/-- The lowest and the highest code. -/
theorem witness_UnsupportedCommandIsAnswered : (packet 0x02 0x00).dst = (node 0x02).myAddr ∧
    (packet 0x00 0xFF).dst = 0x00 ∧ (node 0x02).txActive = false ∧
    Registry.find (node 0x02).registry (packet 0x02 0x00).cmd.toNat = none ∧
    Registry.find (node 0x02).registry (packet 0x00 0xFF).cmd.toNat = none := by decide +kernel
theorem witness_PingIsAnswered : Listening (node 0x02) ∧ (node 0x02).lost = 0 ∧ (node 0x02).idx = 0 ∧ Memory.wf (node 0x02).buf = true ∧
    (node 0x02).myAddr = 0x02 ∧ nextDraw (node 0x02) = .ok ∧
    Registry.find (node 0x02).registry 0x01 = some .ping := by decide +kernel
theorem witness_VersionHeartbeatStatusReplies : (node 0x02).txActive = false := by decide +kernel
theorem witness_ErrorResponsesNameCodeAndNode : (node 0x02).txActive = false ∧ nextDraw (node 0x02) = .ok := by
  decide +kernel
/-- One of its two clauses applies, whatever the free function answers. -/
theorem witness_ExternalHandlerSendsAtMostOnce : (node 0x02).txActive = false ∧
    (Config.extReply 7 (packet 0x02 0x30) 0 = none ∨ ∃ r, Config.extReply 7 (packet 0x02 0x30) 0 = some r) :=
  ⟨rfl, by cases Config.extReply 7 (packet 0x02 0x30) 0 <;> simp⟩
theorem witness_ResetGivesEveryValueOfTheTable : (⟨0xFF, ⟨0, 0, 0, 0⟩, []⟩ : BootParams).myAddr ≠ 0x00 ∧
    (⟨0x00, ⟨0, 0, 0, 0⟩, []⟩ : BootParams).myAddr = 0x00 := by decide +kernel
/-- From Idle, and over a partial frame after the gap. -/
theorem witness_GoodFrameIsDispatchedOnce :
    encode (.fPing (fields 0xC901)) = some (frameBytes 0x01 (fields 0xC901)) ∧ (node 0x02).drive = false ∧
    (node 0x02).rxSuppress = false ∧ (node 0x02).txActive = false ∧ Memory.wf (node 0x02).buf = true ∧
    FreshAt (node 0x02).clock (node 0x02) ∧ (node 0x02).lost = 0 ∧ (fields 0xC901).payload.length ≤ 248 ∧ (fields 0xC901).fin = 0x55 ∧
    (fields 0xC901).crc = frameCrc 0x01 (fields 0xC901) ∧
    FreshAt 1001 { holding [0xAA, 2, 16, 1] 0 with lastTs := 500 } := by decide +kernel
theorem witness_BadFrameIsAnsweredOrCounted :
    encode (.fPing (fields 0xC900)) = some (frameBytes 0x01 (fields 0xC900)) ∧ FreshAt (node 0x02).clock (node 0x02) ∧ (node 0x02).lost = 0 ∧
    (fields 0xC900).payload.length ≤ 248 ∧ (fields 0xC900).fin = 0x55 ∧
    (fields 0xC900).crc ≠ frameCrc 0x01 (fields 0xC900) ∧
    (⟨0x02, 0x10, [], 0xC901, 0x54⟩ : FrameFields).fin ≠ 0x55 := by decide +kernel
/-- The smallest and the largest length of the statement. -/
theorem witness_OverlongFrameOverflows :
    249 ≤ (List.replicate 249 (0 : Byte)).length ∧ (List.replicate 255 (0 : Byte)).length ≤ 255 ∧
    (encode (.fWriteDout ⟨0x02, 0x10, List.replicate 255 0, 0, 0x55⟩) =
      some (frameBytes 0x30 ⟨0x02, 0x10, List.replicate 255 0, 0, 0x55⟩)) ∧
    FreshAt (node 0x02).clock (node 0x02) ∧ (node 0x02).lost = 0 := by decide +kernel
theorem witness_FrameForAnotherNodeIsSilent :
    encode (.fPing ⟨0x03, 0x10, [], 0x3500, 0x55⟩) = some (frameBytes 0x01 ⟨0x03, 0x10, [], 0x3500, 0x55⟩) ∧
    FreshAt (node 0x02).clock (node 0x02) ∧ (node 0x02).lost = 0 ∧
    (0x3500 : Word16) = frameCrc 0x01 ⟨0x03, 0x10, [], 0x3500, 0x55⟩ ∧ (0x03 : Byte) ≠ (node 0x02).myAddr ∧
    (0x03 : Byte) ≠ 0x00 := by decide +kernel
theorem witness_ListeningNodeTakesEveryFrame : encode (.fPing (fields 0xC901)) = some (pingHead ++ [0x55]) ∧
    Listening (node 0x02) ∧ (node 0x02).lost ≤ (pingHead ++ [0x55]).length ∧
    ({ node 0x02 with lost := 8 } : State).lost = (pingHead ++ [0x55]).length ∧
    Listening { node 0x02 with lost := 8 } := by decide +kernel
/-- A good state, and its step: the frame of S3 arrives. -/
theorem witness_EveryStepKeepsTheInvariant :
    Inv { node 0x02 with inbox := [.wire 5 (pingHead ++ [0x55])] } ∧
    after (step { node 0x02 with inbox := [.wire 5 (pingHead ++ [0x55])] }) (fun t => decide (t.rxCount = 1)) = true := by
  decide +kernel
/-- SETHEALTH: none of the exceptions but its own applies. -/
theorem witness_EachStateHasItsOwnWriter :
    (∀ a, Instr.setHealth 7 ≠ .reset a) ∧ (∀ c h, Instr.setHealth 7 ≠ .register c h) ∧
    (∀ ms, Instr.setHealth 7 ≠ .tick ms) ∧ (∀ v, Instr.tick 5 ≠ .setHealth v) ∧ delivers (.setHealth 7) = false ∧
    usesSend (.setHealth 7) = false ∧ ¬ isTxReq (.setHealth 7) ∧ computesCrc (.setHealth 7) = false ∧
    isTxStep (.setHealth 7) = false ∧ (∀ p, Instr.setHealth 7 ≠ .dispatch p) ∧ Instr.setHealth 7 ≠ .txH ∧
    exec (.setHealth 7) (sending .e) = .next { sending .e with health := 7 } :=
  ⟨nofun, nofun, nofun, nofun, rfl, rfl, nofun, rfl, rfl, nofun, nofun, rfl⟩
theorem witness_CountersOnlyCountUp : (∀ a, Instr.crcErrResp 0x10 ≠ .reset a) ∧ encode (.crcErrResp 0x10) = none ∧
    after (exec (.crcErrResp 0x10) (node 0x02)) (fun _ => true) = true :=
  ⟨nofun, rfl, by decide +kernel⟩
theorem witness_OnlyContractViolationsStop : (node 0x02).txActive = false := by decide +kernel
/-- Listening, and in the middle of a transmission. -/
theorem witness_ReceptionNeverStopsTheNode :
    Inv { node 0x02 with inbox := [.wire 5 (pingHead ++ [0x55])] } ∧
    Inv { sending .e with inbox := [.wire 5 (pingHead ++ [0x55])] } := by decide +kernel
/-- Two states that differ in all four fields: a byte at index 0 while `idx = 0`, the length, the timestamp, the
register. -/
theorem witness_UnspecifiedStateIsNeverRead :
    let t : State := { node 0x02 with buf := [(0, 0x7F)], expLen := 9, lastTs := 77, crc := 0x1234 }
    Memory.wf (node 0x02).buf = true ∧ Memory.wf t.buf = true ∧ AlikeButUnread (node 0x02) t := by
  refine ⟨by decide +kernel, by decide +kernel, rfl, fun i hi => absurd hi (by simp [node, State.reset]),
    fun h => absurd h (by simp [node, State.reset]), fun h => absurd h (by simp [node, State.reset])⟩

end Sys2Proof.Tests
end

section
/-! SUPPORT. The kinds of operations: seventeen frames are one kind, and so are the eight steps of the sequence, the
operations of the CRC Engine and the codec, and the handlers. Each kind says what `exec` runs. -/

namespace Sys2Proof.Machine

open Sys2Proof

/-- What kind of operation an instruction is, with what it executes. -/
inductive Kind : Instr → Prop
  | frame {i : Instr} {bs : List Byte} (he : encode i = some bs) (hd : delivers i = true)
      (hx : ∀ s, exec i s = deliver bs s.clock s) : Kind i
  | rxByte (b : Byte) (now : Word32) : Kind (.rxByte b now)
  | lineByte (b : Byte) (now : Word32) : Kind (.lineByte b now)
  | txReq (dst src cmd : Byte) (payload : List Byte) : Kind (.txReq dst src cmd payload)
  | request {i : Instr} (dst cmd : Byte) (src : Byte → Byte) (payload : Byte → List Byte) (hu : usesSend i = true)
      (hx : ∀ s, exec i s = transmit dst (src s.myAddr) cmd (payload s.myAddr) s) : Kind i
  | handler {i : Instr} (h : Handler) (p : Packet) (hu : usesSend i = true) (hx : ∀ s, exec i s = runHandler h p s) :
      Kind i
  | dispatch (p : Packet) : Kind (.dispatch p)
  | codec {i : Instr} (c : Word16 → Word16) (r : Ret → Ret) (hc : computesCrc i = true)
      (hx : ∀ s, exec i s = .next { s with crc := c s.crc, ret := r s.ret }) : Kind i
  | shortDecode (bs : List Byte) (hb : decodeReady bs = false) : Kind (.decode bs)
  | txStep {i : Instr} (hs : isTxStep i = true) : Kind i
  | register (c : Byte) (h : Handler) : Kind (.register c h)
  | tick (ms : Nat) : Kind (.tick ms)
  | setHealth (v : Byte) : Kind (.setHealth v)
  | reset (a : BootParams) : Kind (.reset a)

theorem kind_encode (dst src cmd : Byte) (payload : List Byte) : Kind (.encode dst src cmd payload) := by
  by_cases hl : payload.length > maxPayload
  · exact .codec id (fun _ => .encodeFailure) rfl fun s => by simp [exec, execEncode, packetEncode, hl]
  · exact .codec (fun _ => crcOf (checkedBody dst src cmd payload)) (fun _ => .frame (frameBytes cmd
      ⟨dst, src, payload, crcOf (checkedBody dst src cmd payload), endMarker⟩)) rfl fun s => by
      simp only [exec, execEncode, packetEncode, if_neg hl]

theorem kind_decode (bs : List Byte) : Kind (.decode bs) := by
  by_cases hb : decodeReady bs = true
  · exact .codec (fun _ => computedCrc bs) (fun _ => decodedRet (packetDecode bs)) rfl fun s => if_pos hb
  · exact .shortDecode bs (by simpa using hb)

theorem kind_of (i : Instr) : Kind i := by
  cases i with
  | fPing f => exact .frame rfl rfl fun _ => rfl
  | fPingResp f => exact .frame rfl rfl fun _ => rfl
  | fGetVer f => exact .frame rfl rfl fun _ => rfl
  | fGetVerResp f => exact .frame rfl rfl fun _ => rfl
  | fHeartbeat f => exact .frame rfl rfl fun _ => rfl
  | fHeartbeatResp f => exact .frame rfl rfl fun _ => rfl
  | fGetStatus f => exact .frame rfl rfl fun _ => rfl
  | fGetStatusResp f => exact .frame rfl rfl fun _ => rfl
  | fReadDin f => exact .frame rfl rfl fun _ => rfl
  | fReadDinResp f => exact .frame rfl rfl fun _ => rfl
  | fWriteDout f => exact .frame rfl rfl fun _ => rfl
  | fWriteDoutResp f => exact .frame rfl rfl fun _ => rfl
  | fReadDout f => exact .frame rfl rfl fun _ => rfl
  | fReadAnalog f => exact .frame rfl rfl fun _ => rfl
  | fReadAnalogResp f => exact .frame rfl rfl fun _ => rfl
  | fErrorResp f => exact .frame rfl rfl fun _ => rfl
  | fUnassignedCmd cmd f => exact .frame rfl rfl fun _ => rfl
  | crc16 bs => exact .codec (fun _ => crcOf bs) (fun _ => .crc (crcOf bs)) rfl fun _ => rfl
  | crcInit => exact .codec (fun _ => crcStart) id rfl fun _ => rfl
  | crcByte b => exact .codec (crcStep · b) id rfl fun _ => rfl
  | crcBit d => exact .codec (crcBitStep · d) id rfl fun _ => rfl
  | encode dst src cmd payload => exact kind_encode dst src cmd payload
  | decode bs => exact kind_decode bs
  | rxByte b now => exact .rxByte b now
  | lineByte b now => exact .lineByte b now
  | txReq dst src cmd payload => exact .txReq dst src cmd payload
  | txA => exact .txStep rfl
  | txB => exact .txStep rfl
  | txC => exact .txStep rfl
  | txD => exact .txStep rfl
  | txE d => exact .txStep rfl
  | txF => exact .txStep rfl
  | txG => exact .txStep rfl
  | txH => exact .txStep rfl
  | dispatch p => exact .dispatch p
  | errResp dest e => exact .request dest codeErrorResp id (fun a => [errNumber e, a]) rfl fun _ => rfl
  | crcErrResp src => exact .request src codeErrorResp id (fun a => [errNumber .invalidChecksum, a]) rfl fun _ => rfl
  | ping p => exact .handler .ping p rfl fun _ => rfl
  | getVer p => exact .handler .getVersion p rfl fun _ => rfl
  | heartbeat p => exact .handler .heartbeat p rfl fun _ => rfl
  | getStatus p => exact .handler .getStatus p rfl fun _ => rfl
  | extHandler id p => exact .handler (.external id) p rfl fun _ => rfl
  | register c h => exact .register c h
  | send dst src cmd payload => exact .request dst cmd (fun _ => src) (fun _ => payload) rfl fun _ => rfl
  | tick ms => exact .tick ms
  | setHealth v => exact .setHealth v
  | reset a => exact .reset a

end Sys2Proof.Machine
end

section
/-! SUPPORT. What an operation can change, said once for each kind: the node's own fields, the assembler's, the
counters; and the inversion lemma `exec_effect` that the statements about every operation are read from. -/

namespace Sys2Proof.Machine

open Sys2Proof

/-- The fields that neither reception nor a response nor a step of the sequence writes. -/
structure SameNode (s t : State) : Prop where
  myAddr : t.myAddr = s.myAddr
  version : t.version = s.version
  inbox : t.inbox = s.inbox
  clock : t.clock = s.clock
  registry : t.registry = s.registry
  health : t.health = s.health
  uptimeS : t.uptimeS = s.uptimeS

theorem SameNode.refl (s : State) : SameNode s s := ⟨rfl, rfl, rfl, rfl, rfl, rfl, rfl⟩

theorem SameNode.trans {s t u : State} (h : SameNode s t) (k : SameNode t u) : SameNode s u :=
  ⟨k.myAddr.trans h.myAddr, k.version.trans h.version, k.inbox.trans h.inbox, k.clock.trans h.clock,
    k.registry.trans h.registry, k.health.trans h.health, k.uptimeS.trans h.uptimeS⟩

/-- The fields that only the assembler writes. -/
structure SameAssembler (s t : State) : Prop where
  buf : t.buf = s.buf
  idx : t.idx = s.idx
  expLen : t.expLen = s.expLen
  lastTs : t.lastTs = s.lastTs
  emitted : t.emitted = s.emitted

theorem RespondedFrom.refl (s : State) : RespondedFrom s s := ⟨rfl, .inl ⟨rfl, rfl, rfl, rfl, rfl, rfl⟩⟩

theorem RespondedFrom.sameNode {s t : State} (h : RespondedFrom s t) : SameNode s t := by
  rw [h.1]; exact ⟨rfl, rfl, rfl, rfl, rfl, rfl, rfl⟩

theorem RespondedFrom.sameAssembler {s t : State} (h : RespondedFrom s t) : SameAssembler s t := by
  rw [h.1]; exact ⟨rfl, rfl, rfl, rfl, rfl⟩

theorem AssembledFrom.sameNode {s t : State} (h : AssembledFrom s t) : SameNode s t := by
  rw [h]; exact ⟨rfl, rfl, rfl, rfl, rfl, rfl, rfl⟩

/-! Counting. -/

/-- Each of the three counters stands, or has moved by one. -/
def Counted (s t : State) : Prop :=
  (t.rxCount = s.rxCount ∨ t.rxCount = s.rxCount + 1) ∧ (t.txCount = s.txCount ∨ t.txCount = s.txCount + 1) ∧
    (t.errCount = s.errCount ∨ t.errCount = s.errCount + 1)

theorem Counted.of_eq {s t : State} (hr : t.rxCount = s.rxCount) (ht : t.txCount = s.txCount)
    (he : t.errCount = s.errCount) : Counted s t := ⟨.inl hr, .inl ht, .inl he⟩

/-- The accounting of SEND moves one counter, or none (44 R246). -/
theorem txAccount_cases {s t : State} (h : txAccount s = .next t) :
    t = s ∨ t = { s with txCount := s.txCount + 1 } ∨ t = { s with errCount := s.errCount + 1 } := by
  unfold txAccount at h
  split at h
  · cases h; exact .inr (.inl rfl)
  · cases h; exact .inr (.inr rfl)
  · cases h; exact .inl rfl

theorem txAccount_counted {s t : State} (h : txAccount s = .next t) : t.rxCount = s.rxCount ∧ Counted s t := by
  rcases txAccount_cases h with rfl | rfl | rfl
  · exact ⟨rfl, .of_eq rfl rfl rfl⟩
  · exact ⟨rfl, .inl rfl, .inr rfl, .inl rfl⟩
  · exact ⟨rfl, .inl rfl, .inl rfl, .inr rfl⟩

/-- TXREQ answers a next state exactly while nothing is in flight. -/
theorem txRequest_eq_next {dst src cmd : Byte} {payload : List Byte} {s t : State}
    (h : txRequest dst src cmd payload s = .next t) : s.txActive = false ∧ t = afterTxReq dst src cmd payload s := by
  by_cases hs : s.txActive = true
  · rw [txRequest_of_active _ _ _ _ _ hs] at h; cases h
  · rw [Bool.not_eq_true] at hs
    rw [txRequest_of_inactive _ _ _ _ _ hs] at h
    cases h
    exact ⟨hs, rfl⟩

theorem transmit_counted {dst src cmd : Byte} {payload : List Byte} {s t : State}
    (h : transmit dst src cmd payload s = .next t) : t.rxCount = s.rxCount ∧ Counted s t := by
  obtain ⟨u, hu, h⟩ := andThen_eq_next h
  obtain ⟨-, rfl⟩ := txRequest_eq_next hu
  simpa [Counted] using txAccount_counted h

/-- A handler counts what its response counts, and receives nothing. -/
theorem runHandler_counted {h : Handler} {p : Packet} {s t : State} (ht : runHandler h p s = .next t) :
    t.rxCount = s.rxCount ∧ Counted s t := by
  cases h with
  | ping => exact transmit_counted ht
  | getVersion => exact transmit_counted ht
  | heartbeat => exact transmit_counted ht
  | getStatus => exact transmit_counted ht
  | external id =>
    simp only [runHandler, externalReply] at ht
    split at ht
    · cases ht; exact ⟨rfl, .of_eq rfl rfl rfl⟩
    · exact transmit_counted (s := { s with freeCtr := s.freeCtr + 1 }) ht

/-- DISPATCH counts the packet, and then what the response to it counts. -/
theorem dispatchPacket_counted {p : Packet} {s t : State} (ht : dispatchPacket p s = .next t) : Counted s t := by
  have received : ∀ {u : State}, u.rxCount = s.rxCount + 1 ∧ Counted { s with rxCount := s.rxCount + 1 } u →
      Counted s u := fun ⟨hr, _, htx, herr⟩ => ⟨.inr hr, htx, herr⟩
  unfold dispatchPacket at ht
  split at ht
  · simp only at ht
    split at ht
    · exact received (runHandler_counted ht)
    · exact received (transmit_counted ht)
  · cases ht; exact .of_eq rfl rfl rfl

theorem consume_counted {e : Emission} {s t : State} (ht : consume e s = .next t) : Counted s t := by
  cases e with
  | frameValid p => exact dispatchPacket_counted ht
  | frameCrcError src => exact (transmit_counted ht).2

/-! Requests and receptions. -/

theorem txRequest_from {dst src cmd : Byte} {payload : List Byte} {s t : State}
    (h : txRequest dst src cmd payload s = .next t) : RespondedFrom s t := by
  obtain ⟨hs, rfl⟩ := txRequest_eq_next h
  unfold afterTxReq
  split
  · exact ⟨rfl, .inl ⟨rfl, rfl, rfl, rfl, rfl, rfl⟩⟩
  · refine ⟨?_, .inr ⟨hs, rfl, rfl, rfl, rfl⟩⟩
    cases hd : s.draws <;> simp [afterTx, dropDraw, hd]

/-- After the assembler an RXBYTE changes only what a response may. -/
theorem receiveByte_from {b : Byte} {now : Word32} {s t : State} (h : receiveByte b now s = .next t) :
    RespondedFrom (assembled b now s).1 t := by
  rw [receiveByte_eq] at h
  split at h
  · cases h; exact .refl _
  · exact consume_from h

/-- A LINEBYTE is dropped, or is an RXBYTE. -/
theorem lineArrival_cases {b : Byte} {now : Word32} {s t : State} (h : lineArrival b now s = .next t) :
    (gateClosed s = true ∧ t = s) ∨ (gateClosed s = false ∧ receiveByte b now s = .next t) := by
  unfold lineArrival at h
  split at h
  · next hg => cases h; exact .inl ⟨hg, rfl⟩
  · next hg => exact .inr ⟨by simpa using hg, h⟩

/-- One byte of the line: deleted, since a response overtook it, dropped, or an RXBYTE. -/
inductive Arrives (s : State) : State → Prop
  | lost : Arrives s { s with lost := s.lost - 1 }
  | dropped : Arrives s s
  | received {t : State} (b : Byte) (now : Word32) (h : receiveByte b now s = .next t) : Arrives s t

theorem arrives_of_lineArrival {b : Byte} {now : Word32} {s t : State} (h : lineArrival b now s = .next t) :
    Arrives s t := by
  rcases lineArrival_cases h with ⟨-, rfl⟩ | ⟨-, h⟩
  · exact .dropped
  · exact .received b now h

/-- The arrival of bytes is the arrival of one after another. -/
theorem deliver_arrives {bs : List Byte} {now : Word32} {s t : State} (h : deliver bs now s = .next t) :
    Relation.ReflTransGen Arrives s t :=
  deliver_keeps (fun _ hs => hs.tail .lost) (fun _ _ _ hs h => hs.tail (arrives_of_lineArrival h)) bs .refl h

theorem Arrives.sameNode {s t : State} (h : Arrives s t) : SameNode s t := by
  cases h with
  | lost => exact ⟨rfl, rfl, rfl, rfl, rfl, rfl, rfl⟩
  | dropped => exact .refl s
  | received b now h => exact (assembled_from b now s).sameNode.trans (receiveByte_from h).sameNode

theorem sameNode_of_arrivals {s t : State} (h : Relation.ReflTransGen Arrives s t) : SameNode s t := by
  induction h with
  | refl => exact .refl s
  | tail _ h ih => exact ih.trans h.sameNode

/-! The steps of the transmit sequence. -/

/-- `t` is `s` after a step of the sequence: nothing but the direction controller's state, the line, and what the
waiting caller is given and counts; the flags follow the phase, and no request begins. -/
structure SteppedFrom (s t : State) : Prop where
  eq : t = { s with
    drive := t.drive, rxSuppress := t.rxSuppress, txActive := t.txActive, phase := t.phase, lineTx := t.lineTx
    inFlight := t.inFlight, onLine := t.onLine, txOutcome := t.txOutcome, caller := t.caller, ret := t.ret
    txCount := t.txCount, errCount := t.errCount }
  direction : DirectionInv s → DirectionInv t
  active : t.txActive = true → s.txActive = true
  counted : Counted s t

theorem SteppedFrom.sameNode {s t : State} (h : SteppedFrom s t) : SameNode s t := by
  rw [h.eq]; exact ⟨rfl, rfl, rfl, rfl, rfl, rfl, rfl⟩

theorem SteppedFrom.sameAssembler {s t : State} (h : SteppedFrom s t) : SameAssembler s t := by
  rw [h.eq]; exact ⟨rfl, rfl, rfl, rfl, rfl⟩

/-- A step in its turn that counts nothing. -/
theorem SteppedFrom.of_inTurn {p : Phase} {f : State → State} {s t : State} {i : Instr}
    (h : inTurn p (fun t => .next (f t)) s = .next t)
    (he : f s = { s with
      drive := (f s).drive, rxSuppress := (f s).rxSuppress, phase := (f s).phase, lineTx := (f s).lineTx
      inFlight := (f s).inFlight, onLine := (f s).onLine, txOutcome := (f s).txOutcome })
    (hd : s.rxSuppress = suppressAt p → s.drive = driveAt p → s.txActive = activeAt p → DirectionInv (f s)) :
    SteppedFrom s t ∧ (i ≠ .txH → t.txCount = s.txCount ∧ t.errCount = s.errCount) := by
  obtain ⟨hp, h⟩ := inTurn_eq_next h
  obtain rfl : f s = t := by simpa using h
  subst hp
  refine ⟨⟨?_, fun ⟨hr, hv, ha⟩ => hd hr hv ha, fun ha => ?_, ?_⟩, fun _ => ?_⟩
  · rw [he]
  · rw [he] at ha; exact ha
  · rw [he]; exact .of_eq rfl rfl rfl
  · rw [he]; exact ⟨rfl, rfl⟩

/-- What the caller of a request kept in steps is given, and counts. -/
theorem returnToCaller_from {s t : State} (h : returnToCaller s = .next t) :
    t = { s with caller := t.caller, ret := t.ret, txCount := t.txCount, errCount := t.errCount } ∧ Counted s t := by
  unfold returnToCaller at h
  split at h
  · cases h; exact ⟨rfl, .of_eq rfl rfl rfl⟩
  · cases h; exact ⟨rfl, .of_eq rfl rfl rfl⟩
  · refine ⟨?_, (txAccount_counted h).2⟩
    rcases txAccount_cases h with rfl | rfl | rfl <;> rfl

/-- Step (h) ends the sequence: the node listens. -/
theorem SteppedFrom.of_txH {s t : State} (h : execTxH s = .next t) : SteppedFrom s t := by
  obtain ⟨hp, h⟩ := inTurn_eq_next h
  obtain ⟨he, hc⟩ := returnToCaller_from h
  refine ⟨by rw [he]; rfl, fun ⟨_, hd, _⟩ => ?_, ?_, hc⟩
  · have hd : s.drive = false := by rw [hd, hp]; rfl
    rw [he]
    exact ⟨rfl, hd, rfl⟩
  · rw [he]; simp

/-- Each of the eight steps; only step (h) counts. -/
theorem exec_txStep {i : Instr} {s t : State} (hs : isTxStep i = true) (h : exec i s = .next t) :
    SteppedFrom s t ∧ (i ≠ .txH → t.txCount = s.txCount ∧ t.errCount = s.errCount) :=
  match i, hs with
  | .txA, rfl => SteppedFrom.of_inTurn h rfl fun _ hd ha => ⟨rfl, hd, ha⟩
  | .txB, rfl => SteppedFrom.of_inTurn h rfl fun hr _ ha => ⟨hr, rfl, ha⟩
  | .txC, rfl => SteppedFrom.of_inTurn h rfl fun hr hd ha => ⟨hr, hd, ha⟩
  | .txD, rfl => SteppedFrom.of_inTurn h rfl fun hr hd ha => ⟨hr, hd, ha⟩
  | .txE _, rfl => SteppedFrom.of_inTurn h rfl fun hr hd ha => ⟨hr, hd, ha⟩
  | .txF, rfl => SteppedFrom.of_inTurn h rfl fun hr hd ha => ⟨hr, hd, ha⟩
  | .txG, rfl => SteppedFrom.of_inTurn h rfl fun hr _ ha => ⟨hr, rfl, ha⟩
  | .txH, rfl => ⟨.of_txH h, fun hn => absurd rfl hn⟩

/-! What any operation does. -/

/-- What the operation `i` has done when it answers `t`. -/
inductive Effect (i : Instr) (s t : State) : Prop
  | arrived (hd : delivers i = true) (he : encode i ≠ none) (ht : Relation.ReflTransGen Arrives s t)
  | byte (hd : delivers i = true) (ht : Arrives s t)
  | responded (hu : usesSend i = true) (ht : RespondedFrom s t) (hc : Counted s t)
      (hr : (∀ p, i ≠ .dispatch p) → t.rxCount = s.rxCount)
  | requested (hq : isTxReq i) (ht : RespondedFrom s t) (hr : t.rxCount = s.rxCount) (hx : t.txCount = s.txCount)
      (he : t.errCount = s.errCount)
  | computed (hc : computesCrc i = true) (c : Word16) (r : Ret) (ht : t = { s with crc := c, ret := r })
  | stepped (hs : isTxStep i = true) (ht : SteppedFrom s t)
      (hc : i ≠ .txH → t.txCount = s.txCount ∧ t.errCount = s.errCount)
  | registered (c : Byte) (h : Handler) (hi : i = .register c h)
      (ht : t = { s with registry := Registry.put s.registry c.toNat h })
  | ticked (ms : Nat) (hi : i = .tick ms) (u : Word32) (ht : t = { s with uptimeS := u })
  | healthSet (v : Byte) (hi : i = .setHealth v) (ht : t = { s with health := v })
  | booted (a : BootParams) (hi : i = .reset a) (ha : a.myAddr ≠ 0x00) (ht : t = boot a s)

theorem exec_effect {i : Instr} {s t : State} (h : exec i s = .next t) : Effect i s t := by
  cases kind_of i with
  | frame he hd hx => exact .arrived hd (by simp [he]) (deliver_arrives ((hx s).symm.trans h))
  | rxByte b now => exact .byte rfl (.received b now h)
  | lineByte b now => exact .byte rfl (arrives_of_lineArrival h)
  | txReq dst src cmd payload =>
    obtain ⟨-, rfl⟩ := txRequest_eq_next h
    exact .requested ⟨_, _, _, _, rfl⟩ (txRequest_from h) (by simp) (by simp) (by simp)
  | request dst cmd src payload hu hx =>
    have h := (hx s).symm.trans h
    exact .responded hu (transmit_from h) (transmit_counted h).2 fun _ => (transmit_counted h).1
  | handler g p hu hx =>
    have h := (hx s).symm.trans h
    exact .responded hu (runHandler_from h) (runHandler_counted h).2 fun _ => (runHandler_counted h).1
  | dispatch p => exact .responded rfl (dispatchPacket_from h) (dispatchPacket_counted h) fun hp => absurd rfl (hp p)
  | codec c r hc hx => rw [hx s] at h; cases h; exact .computed hc _ _ rfl
  | shortDecode bs hb => simp [exec, execDecode, hb] at h
  | txStep hs => exact .stepped hs (exec_txStep hs h).1 (exec_txStep hs h).2
  | register c g => cases h; exact .registered c g rfl rfl
  | tick ms => cases h; exact .ticked ms rfl _ rfl
  | setHealth v => cases h; exact .healthSet v rfl rfl
  | reset a =>
    simp only [exec, execReset] at h
    split at h
    · cases h
    · next ha => cases h; exact .booted a rfl ha rfl

end Sys2Proof.Machine
end

section
/-! PROOF. The steps out of turn (O35), the start state (O48, O55), and ownership (O56), read from
`exec_effect`. -/

namespace Sys2Proof.Machine

open Sys2Proof

/-- A step out of its turn. -/
theorem inTurn_refused {p : Phase} {k : State → Res} {s : State} (hp : s.phase ≠ p) :
    inTurn p k s = .refused .txStepOutOfTurn := if_neg hp

/-- Settles O35: the guard of every step. -/
theorem stepsOutOfTurnAreRefused : Obligations.StepsOutOfTurnAreRefused := by
  intro s
  simp only [exec, execTxA, execTxB, execTxC, execTxD, execTxE, execTxF, execTxG, execTxH]
  exact ⟨inTurn_refused, inTurn_refused, inTurn_refused, inTurn_refused, fun _ => inTurn_refused, inTurn_refused,
    inTurn_refused, inTurn_refused⟩

/-- Settles O48: the start state is a closed value. -/
theorem startStateHasTheTablesValues : Obligations.StartStateHasTheTablesValues := by
  unfold Obligations.StartStateHasTheTablesValues; decide

/-- Settles O55: the start state is a closed value. -/
theorem startStateMeetsTheInvariant : Obligations.StartStateMeetsTheInvariant := by
  unfold Obligations.StartStateMeetsTheInvariant; decide

/-- The clauses of ownership on the node's own fields, whatever the exceptions `P`, `Q`, `R` are. -/
theorem SameNode.and {s t : State} {P Q R S : Prop} (n : SameNode s t) (h : S) :
    t.myAddr = s.myAddr ∧ t.version = s.version ∧ t.inbox = s.inbox ∧ t.clock = s.clock ∧
      (P → t.registry = s.registry) ∧ (Q → t.health = s.health) ∧ (R → t.uptimeS = s.uptimeS) ∧ S :=
  ⟨n.myAddr, n.version, n.inbox, n.clock, fun _ => n.registry, fun _ => n.health, fun _ => n.uptimeS, h⟩

/-- The clauses of ownership on the assembler's fields. -/
theorem SameAssembler.and {s t : State} {S : Prop} (m : SameAssembler s t) (h : S) :
    t.buf = s.buf ∧ t.idx = s.idx ∧ t.expLen = s.expLen ∧ t.lastTs = s.lastTs ∧ t.emitted = s.emitted ∧ S :=
  ⟨m.buf, m.idx, m.expLen, m.lastTs, m.emitted, h⟩

/-- Settles O56, by the kinds of effect: each names the fields it may change. -/
theorem eachStateHasItsOwnWriter : Obligations.EachStateHasItsOwnWriter := by
  intro i s t h hr
  cases exec_effect h with
  | arrived hd he ht => exact (sameNode_of_arrivals ht).and fun hn => absurd (hd.symm.trans hn) nofun
  | byte hd ht => exact ht.sameNode.and fun hn => absurd (hd.symm.trans hn) nofun
  | responded hu ht hc hx =>
    exact ht.sameNode.and fun _ => ht.sameAssembler.and
      ⟨fun hn => absurd (hu.symm.trans hn) nofun, fun hn => absurd (hu.symm.trans hn) nofun, hx,
        fun hn => absurd (hu.symm.trans hn) nofun⟩
  | requested hq ht hx hc he =>
    exact ht.sameNode.and fun _ => ht.sameAssembler.and
      ⟨fun _ hn => absurd hq hn, fun _ hn => absurd hq hn, fun _ => hx, fun _ _ => ⟨hc, he⟩⟩
  | computed hc c r ht => subst ht; simp [hc]
  | stepped hs ht hc =>
    refine ht.sameNode.and fun _ => ht.sameAssembler.and
      ⟨fun _ _ _ => ?_, fun _ _ hn => absurd (hs.symm.trans hn) nofun, fun _ => ?_, fun _ => hc⟩ <;> rw [ht.eq]
  | registered c g hi ht => subst ht hi; simp
  | ticked ms hi u ht => subst ht hi; simp
  | healthSet v hi ht => subst ht hi; simp
  | booted a hi ha ht => exact absurd hi (hr a)

end Sys2Proof.Machine
end

section
/-! PROOF. The assembler: its outcomes, said once, with what each stores (O27) and counts (O57). -/

namespace Sys2Proof.Machine

open Sys2Proof

/-- Steps 5 and 6 write the buffer, the index and, at the fifth byte, the length. -/
theorem appended_eq (b : Byte) (s : State) :
    appended b s = { s with
      buf := Memory.write s.buf s.idx b, idx := s.idx + 1
      expLen := if s.idx = 4 then Memory.read (Memory.write s.buf s.idx b) 4 else s.expLen } := by
  unfold appended
  split <;> rfl

@[simp] theorem appended_buf (b : Byte) (s : State) : (appended b s).buf = Memory.write s.buf s.idx b := by
  rw [appended_eq]
@[simp] theorem appended_errCount (b : Byte) (s : State) : (appended b s).errCount = s.errCount := by
  rw [appended_eq]
theorem appended_expLen (b : Byte) (s : State) :
    (appended b s).expLen = if s.idx = 4 then Memory.read (appended b s).buf 4 else s.expLen := by
  rw [appended_eq]

/-- What the seven steps of RXBYTE make of a byte, up to the output (42 R171). -/
inductive Assembles (b : Byte) (now : Word32) (s : State) : State × Option Emission → Prop
  | discarded (h0 : (arrive now s).idx = 0) : Assembles b now s (arrive now s, none)
  | opened (h0 : (arrive now s).idx = 0) (hb : b = 0xAA) :
      Assembles b now s ({ arrive now s with buf := Memory.write s.buf 0 b, idx := 1 }, none)
  | overflowed : Assembles b now s (errorChange .overflow (arrive now s), none)
  | kept (h0 : 0 < (arrive now s).idx) (hi : (arrive now s).idx < 256)
      (hc : structurallyComplete (appended b (arrive now s)) = false) :
      Assembles b now s (appended b (arrive now s), none)
  | badEnd (hi : (arrive now s).idx < 256) :
      Assembles b now s (errorChange .badEnd (appended b (arrive now s)), none)
  | handedOff (hi : (arrive now s).idx < 256) (frame : List Byte) :
      Assembles b now s (handOff frame (appended b (arrive now s)))

theorem assembles (b : Byte) (now : Word32) (s : State) : Assembles b now s (assembled b now s) := by
  unfold assembled
  simp only
  split
  · next h0 =>
    split
    · next hb => simpa using Assembles.opened h0 hb
    · exact .discarded h0
  · next h0 =>
    split
    · exact .overflowed
    · next hf =>
      have hi : (arrive now s).idx < 256 := by omega
      unfold finished
      split
      · split
        · exact .handedOff hi _
        · exact .badEnd hi
      · next hc => exact .kept (by omega) hi (by simpa using hc)

/-- The assembler stores at most one byte, at the fill index it finds once the timeout has acted. -/
theorem Assembles.buf {b : Byte} {now : Word32} {s : State} {x : State × Option Emission} (h : Assembles b now s x) :
    x.1.buf = s.buf ∨ ((arrive now s).idx < 256 ∧ x.1.buf = Memory.write s.buf (arrive now s).idx b) := by
  cases h with
  | discarded h0 => exact .inl (arrive_buf now s)
  | opened h0 hb => exact .inr ⟨by omega, by rw [h0]⟩
  | overflowed => exact .inl (arrive_buf now s)
  | kept h0 hi hc => exact .inr ⟨hi, by simp⟩
  | badEnd hi => exact .inr ⟨hi, by simp⟩
  | handedOff hi frame => exact .inr ⟨hi, by simp [handOff]⟩

/-- The assembler keeps the canonical form of the buffer. -/
theorem assembled_wf (b : Byte) (now : Word32) {s : State} (h : Memory.wf s.buf = true) :
    Memory.wf (assembled b now s).1.buf = true := by
  rcases (assembles b now s).buf with hb | ⟨hi, hb⟩ <;> rw [hb]
  · exact h
  · exact Memory.wf_write hi h

/-- RXBYTE, its consumer included, leaves every other index of the buffer alone. -/
theorem receiveByte_read_ne {b : Byte} {now : Word32} {s t : State} (h : receiveByte b now s = .next t) {a : Nat}
    (ha : a ≠ (arrive now s).idx) : Memory.read t.buf a = Memory.read s.buf a := by
  rw [(receiveByte_from h).sameAssembler.buf]
  rcases (assembles b now s).buf with hb | ⟨-, hb⟩ <;> rw [hb]
  exact Memory.read_write_ne _ _ _ _ ha

/-- Settles O27: the assembler is all of RXBYTE that writes the buffer, and a closed gate is never passed. -/
theorem bufferIsWrittenOnlyAtTheFillIndex : Obligations.BufferIsWrittenOnlyAtTheFillIndex := by
  refine ⟨fun s t b now h a ha => receiveByte_read_ne h ha, fun s t b now h a ha => ?_⟩
  rcases lineArrival_cases h with ⟨-, rfl⟩ | ⟨hg, h⟩
  · rfl
  · refine receiveByte_read_ne h (ha.resolve_right fun hr => ?_)
    simp [gateClosed, hr] at hg

/-- The assembler counts an error only where it has no output. -/
theorem Assembles.errCount {b : Byte} {now : Word32} {s : State} {x : State × Option Emission}
    (h : Assembles b now s x) : x.1.errCount = s.errCount ∨ (x.2 = none ∧ x.1.errCount = s.errCount + 1) := by
  cases h with
  | discarded h0 => exact .inl (arrive_errCount now s)
  | opened h0 hb => exact .inl (arrive_errCount now s)
  | overflowed => exact .inr ⟨rfl, by simp⟩
  | kept h0 hi hc => exact .inl (by simp)
  | badEnd hi => exact .inr ⟨rfl, by simp⟩
  | handedOff hi frame => exact .inl (by simp [handOff])

theorem AssembledFrom.rxCount {s t : State} (h : AssembledFrom s t) : t.rxCount = s.rxCount := by rw [h]
theorem AssembledFrom.txCount {s t : State} (h : AssembledFrom s t) : t.txCount = s.txCount := by rw [h]

/-- Where the assembler counts an error nothing is consumed; else the consumer alone counts. -/
theorem receiveByte_counted {b : Byte} {now : Word32} {s t : State} (h : receiveByte b now s = .next t) :
    Counted s t := by
  have hf := assembled_from b now s
  rw [receiveByte_eq] at h
  rcases (assembles b now s).errCount with he | ⟨hn, he⟩
  · have counted : Counted (assembled b now s).1 t := by
      split at h
      · cases h; exact .of_eq rfl rfl rfl
      · exact consume_counted h
    simpa only [Counted, hf.rxCount, hf.txCount, he] using counted
  · rw [hn] at h
    cases h
    exact ⟨.inl hf.rxCount, .inl hf.txCount, .inr he⟩

theorem Arrives.counted {s t : State} (h : Arrives s t) : Counted s t := by
  cases h with
  | lost => exact .of_eq rfl rfl rfl
  | dropped => exact .of_eq rfl rfl rfl
  | received b now h => exact receiveByte_counted h

/-- Settles O57, by the kinds of effect. -/
theorem countersOnlyCountUp : Obligations.CountersOnlyCountUp := by
  intro i s t h hr he
  show Counted s t
  cases exec_effect h with
  | arrived _ hn _ => exact absurd he hn
  | byte _ ht => exact ht.counted
  | responded _ _ hc _ => exact hc
  | requested _ _ hr ht he => exact .of_eq hr ht he
  | computed _ c r ht => subst ht; exact .of_eq rfl rfl rfl
  | stepped _ ht _ => exact ht.counted
  | registered c g _ ht => subst ht; exact .of_eq rfl rfl rfl
  | ticked ms _ u ht => subst ht; exact .of_eq rfl rfl rfl
  | healthSet v _ ht => subst ht; exact .of_eq rfl rfl rfl
  | booted a hi _ _ => exact absurd hi (hr a)

end Sys2Proof.Machine
end

section
/-! PROOF. The invariant of 10 R38 (O54): the assembler keeps its part, the steps and responses keep the direction
controller's, and every kind of effect is made of these. -/

namespace Sys2Proof.Machine

open Sys2Proof

/-- The part of the invariant on the direction controller: flags, frame in transmission, mark of lost bytes. -/
def SenderInv (s : State) : Prop :=
  DirectionInv s ∧ (s.txActive = true → 8 ≤ s.txFrame.length ∧ s.txFrame.length ≤ 258) ∧ StreamInv s

theorem inv_iff (s : State) :
    Inv s ↔ AssemblerInv s ∧ StorageInv s ∧ s.myAddr ≠ 0x00 ∧ SenderInv s := by
  unfold SenderInv; tauto

theorem SenderInv.of_listening {s : State} (h : Listening s) : SenderInv s := by
  obtain ⟨hp, hd, hr, ha⟩ := h
  simp [SenderInv, DirectionInv, StreamInv, hp, hd, hr, ha, suppressAt, driveAt, activeAt]

/-- In Idle the assembler holds nothing to be constrained. -/
theorem AssemblerInv.of_idle {s : State} (h : s.idx = 0) : AssemblerInv s := by
  simp [AssemblerInv, h]

theorem SameAssembler.assemblerInv {s t : State} (m : SameAssembler s t) (h : AssemblerInv s) : AssemblerInv t := by
  simpa only [AssemblerInv, m.buf, m.idx, m.expLen] using h

theorem StorageInv.of_eq {s t : State} (h : StorageInv s) (hb : t.buf = s.buf) (hr : t.registry = s.registry) :
    StorageInv t := by
  simpa only [StorageInv, hb, hr] using h

theorem RespondedFrom.senderInv {s t : State} (h : RespondedFrom s t) (hs : SenderInv s) : SenderInv t := by
  rcases h.2 with ⟨hd, hr, hp, ha, hf, hl⟩ | ⟨-, hd, hr, hp, ha⟩
  · simpa only [SenderInv, DirectionInv, StreamInv, hd, hr, hp, ha, hf, hl] using hs
  · exact .of_listening ⟨hp, hd, hr, ha⟩

theorem RespondedFrom.inv {s t : State} (h : RespondedFrom s t) (hs : Inv s) : Inv t := by
  obtain ⟨ha, hst, hm, hse⟩ := (inv_iff s).1 hs
  exact (inv_iff t).2 ⟨h.sameAssembler.assemblerInv ha, hst.of_eq h.sameAssembler.buf h.sameNode.registry,
    h.sameNode.myAddr ▸ hm, h.senderInv hse⟩

theorem SteppedFrom.inv {s t : State} (h : SteppedFrom s t) (hs : Inv s) : Inv t := by
  obtain ⟨ha, hst, hm, hd, hf, hl⟩ := (inv_iff s).1 hs
  have hfr : t.txFrame = s.txFrame := by rw [h.eq]
  have hlo : t.lost = s.lost := by rw [h.eq]
  refine (inv_iff t).2 ⟨h.sameAssembler.assemblerInv ha, hst.of_eq h.sameAssembler.buf h.sameNode.registry,
    h.sameNode.myAddr ▸ hm, h.direction hd, fun hx => ?_, fun hx => ?_⟩
  · rw [hfr]; exact hf (h.active hx)
  · rw [hlo]; exact hl (h.active hx)

theorem AssembledFrom.senderInv {s t : State} (h : AssembledFrom s t) (hs : SenderInv s) : SenderInv t := by
  rw [h]; exact hs

/-- Below the end of the frame an appended byte overwrites neither the start marker nor the latched length, and the
fifth is latched itself. -/
theorem appended_assemblerInv {b : Byte} {s : State} (h : AssemblerInv s) (h0 : 0 < s.idx)
    (hi : s.idx < 256) (hc : structurallyComplete (appended b s) = false) : AssemblerInv (appended b s) := by
  obtain ⟨-, hstart, hlen, -⟩ := h
  have hidx := appended_idx b s
  simp only [structurallyComplete, hidx, Bool.and_eq_false_iff, decide_eq_false_iff_not] at hc
  refine ⟨by omega, fun _ => ?_, fun h5 => ?_, fun h5 => by omega⟩
  · rw [appended_buf, Memory.read_write_ne _ _ _ _ (by omega), hstart h0]
  · rw [appended_expLen]
    split
    · rfl
    · next h4 => rw [appended_buf, Memory.read_write_ne _ _ _ _ (Ne.symm h4), hlen (by omega)]

theorem arrive_assemblerInv (now : Word32) {s : State} (h : AssemblerInv s) : AssemblerInv (arrive now s) := by
  by_cases hx : idleExpired now s = true
  · exact .of_idle (by rw [arrive_idx, if_pos hx])
  · have hi : (arrive now s).idx = s.idx := by rw [arrive_idx, if_neg hx]
    simpa only [AssemblerInv, hi, arrive_buf, arrive_expLen] using h

theorem Assembles.assemblerInv {b : Byte} {now : Word32} {s : State} {x : State × Option Emission}
    (h : Assembles b now s x) (hw : Memory.wf s.buf = true) (hs : AssemblerInv s) : AssemblerInv x.1 := by
  have ha := arrive_assemblerInv now hs
  cases h with
  | discarded h0 => exact ha
  | opened h0 hb =>
    refine ⟨by simp, fun _ => ?_, by simp, by simp⟩
    simp [Memory.read_write _ _ _ _ hw, hb]
  | overflowed => exact .of_idle rfl
  | kept h0 hi hc => exact appended_assemblerInv ha h0 hi hc
  | badEnd hi => exact .of_idle rfl
  | handedOff hi frame => exact .of_idle rfl

theorem assembled_inv (b : Byte) (now : Word32) {s : State} (hs : Inv s) : Inv (assembled b now s).1 := by
  obtain ⟨ha, ⟨hw, hr⟩, hm, hse⟩ := (inv_iff s).1 hs
  have hf := assembled_from b now s
  exact (inv_iff _).2 ⟨(assembles b now s).assemblerInv hw ha,
    ⟨assembled_wf b now hw, hf.sameNode.registry ▸ hr⟩, hf.sameNode.myAddr ▸ hm, hf.senderInv hse⟩

theorem Arrives.inv {s t : State} (h : Arrives s t) (hs : Inv s) : Inv t := by
  cases h with
  | lost =>
    obtain ⟨ha, hd, hst, hi, hl⟩ := hs
    exact ⟨ha, hd, hst, hi, fun hx => by simp [hl hx]⟩
  | dropped => exact hs
  | received b now h => exact (receiveByte_from h).inv (assembled_inv b now hs)

theorem inv_of_arrivals {s t : State} (h : Relation.ReflTransGen Arrives s t) (hs : Inv s) : Inv t := by
  induction h with
  | refl => exact hs
  | tail _ h ih => exact h.inv ih

theorem boot_inv {a : BootParams} (s : State) (ha : a.myAddr ≠ 0x00) : Inv (boot a s) :=
  (inv_iff _).2 ⟨.of_idle rfl, ⟨Memory.wf_ofFn _, Registry.wf_registerAll _ rfl⟩, ha,
    .of_listening ⟨rfl, rfl, rfl, rfl⟩⟩

theorem exec_inv {i : Instr} {s t : State} (hs : Inv s) (h : exec i s = .next t) : Inv t := by
  cases exec_effect h with
  | arrived _ _ ht => exact inv_of_arrivals ht hs
  | byte _ ht => exact ht.inv hs
  | responded _ ht _ _ => exact ht.inv hs
  | requested _ ht _ _ _ => exact ht.inv hs
  | computed _ c r ht => subst ht; exact hs
  | stepped _ ht _ => exact ht.inv hs
  | registered c g _ ht =>
    subst ht
    obtain ⟨ha, hd, ⟨hb, hr⟩, hi, hl⟩ := hs
    exact ⟨ha, hd, ⟨hb, Registry.wf_put c.isLt hr⟩, hi, hl⟩
  | ticked ms _ u ht => subst ht; exact hs
  | healthSet v _ ht => subst ht; exact hs
  | booted a _ ha ht => subst ht; exact boot_inv s ha

theorem FetchedFrom.inv {s u : State} (h : FetchedFrom s u) (hs : Inv s) : Inv u := by
  obtain ⟨he, hlost⟩ := h
  obtain ⟨ha, hd, hst, hi, hl⟩ := hs
  rw [he]
  refine ⟨ha, hd, hst, hi, fun hx => ?_⟩
  have := hl hx
  show u.lost = 0
  omega

/-- An encoded frame has 8 to 258 bytes (10 R31). -/
theorem packetEncode_length {dst src cmd : Byte} {payload f : List Byte}
    (h : packetEncode dst src cmd payload = some f) : 8 ≤ f.length ∧ f.length ≤ 258 := by
  rw [packetEncode_eq] at h
  split at h
  · cases h
  · obtain rfl := Option.some.inj h
    simp [le16]
    omega

theorem phase_listen_of_inactive {p : Phase} (h : activeAt p = false) : p = .listen := by
  cases p with
  | listen => rfl
  | _ => cases h

/-- Acceptance starts from LISTEN, whose flags are those of step (a) but for `tx_active` (43 R203). -/
theorem accepted_senderInv {dst src cmd : Byte} {payload f : List Byte} {s : State} (c : Option Caller)
    (hs : SenderInv s) (ha : s.txActive = false) (hf : 8 ≤ f.length ∧ f.length ≤ 258) (hl : s.lost = 0) :
    SenderInv { txAccept dst src cmd payload f s with caller := c } := by
  obtain ⟨⟨hr, hd, hx⟩, -, -⟩ := hs
  have hp : s.phase = .listen := phase_listen_of_inactive (hx.symm.trans ha)
  rw [hp] at hr hd
  exact ⟨⟨hr, hd, rfl⟩, fun _ => hf, fun _ => hl⟩

theorem openRequest_inv {c : Caller} {dst src cmd : Byte} {payload : List Byte} {s t : State} (hs : Inv s)
    (hl : s.lost = 0) (h : openRequest c dst src cmd payload s = .next t) : Inv t := by
  unfold openRequest at h
  split at h
  · cases h
  · next hact =>
    split at h
    · cases h; exact hs
    · next f hf =>
      cases h
      obtain ⟨ha, hst, hm, hse⟩ := (inv_iff s).1 hs
      exact (inv_iff _).2 ⟨ha, hst, hm,
        accepted_senderInv _ hse (by simpa using hact) (packetEncode_length hf) hl⟩

/-- Settles O54: a step executes an instruction, takes inputs, or accepts a request, and each keeps the invariant. -/
theorem everyStepKeepsTheInvariant : Obligations.EveryStepKeepsTheInvariant := by
  intro s t hs h
  rcases step_cases s with ⟨i, u, hu, hf⟩ | ⟨u, hu, hf⟩ | ⟨c, dst, src, cmd, p, l, hu⟩ | hu <;> rw [hu] at h
  · exact exec_inv (hf.inv hs) h
  · cases h; exact hf.inv hs
  · refine openRequest_inv ?_ rfl h
    obtain ⟨ha, hd, hst, hi, -⟩ := hs
    exact ⟨ha, hd, hst, hi, fun _ => rfl⟩
  · cases h

end Sys2Proof.Machine
end

section
/-! PROOF. Noninterference: what 10 R39 leaves unspecified is not read (O60). Each operation takes states that are
alike to outcomes that are alike; the lemmas follow the operations from SEND up to the fetch. -/

namespace Sys2Proof.Machine

open Sys2Proof

theorem AlikeButUnread.refl (s : State) : AlikeButUnread s s := ⟨rfl, fun _ _ => rfl, fun _ => rfl, fun _ => rfl⟩

/-- One of two alike states is the other, with other values where nothing is read. -/
theorem AlikeButUnread.exists_eq {s t : State} (h : AlikeButUnread s t) :
    ∃ b n l c, t = { s with buf := b, expLen := n, lastTs := l, crc := c } := ⟨_, _, _, _, h.1⟩

section Fields
variable {s t : State} (h : AlikeButUnread s t)
include h

theorem AlikeButUnread.idx : t.idx = s.idx := by rw [h.1]
theorem AlikeButUnread.drive : t.drive = s.drive := by rw [h.1]
theorem AlikeButUnread.rxSuppress : t.rxSuppress = s.rxSuppress := by rw [h.1]
theorem AlikeButUnread.txActive : t.txActive = s.txActive := by rw [h.1]
theorem AlikeButUnread.lost : t.lost = s.lost := by rw [h.1]

end Fields

/-- `k` reads nothing that R39 leaves unspecified. -/
def Blind (k : State → Res) : Prop := ∀ s t, AlikeButUnread s t → AlikeOutcomes (k s) (k t)

theorem alikeOutcomes_andThen {r q : Res} {k l : State → Res} (h : AlikeOutcomes r q)
    (hk : ∀ s t, r = .next s → q = .next t → AlikeButUnread s t → AlikeOutcomes (k s) (l t)) :
    AlikeOutcomes (andThen r k) (andThen q l) := by
  cases r with
  | next s =>
    cases q with
    | next t => exact hk s t rfl rfl h
    | fault _ => exact h.elim
    | refused _ => exact h.elim
  | fault _ =>
    cases q with
    | next _ => exact h.elim
    | fault _ => exact h
    | refused _ => exact h.elim
  | refused _ =>
    cases q with
    | next _ => exact h.elim
    | fault _ => exact h.elim
    | refused _ => exact h

theorem alike_dropDraw {s t : State} (h : AlikeButUnread s t) : AlikeButUnread (dropDraw s) (dropDraw t) := by
  obtain ⟨b, n, l, d, rfl⟩ := h.exists_eq
  unfold dropDraw
  simp only
  split <;> exact ⟨rfl, h.2⟩

theorem alike_afterTx {s t : State} (h : AlikeButUnread s t) (c : Word16) (f : List Byte) :
    AlikeButUnread (afterTx c f s) (afterTx c f t) := by
  obtain ⟨b, n, l, d, rfl⟩ := h.exists_eq
  unfold afterTx dropDraw nextDraw nextDuring
  simp only
  split <;> exact ⟨rfl, h.2⟩

theorem blind_txRequest (dst src cmd : Byte) (payload : List Byte) : Blind (txRequest dst src cmd payload) := by
  intro s t h
  cases ha : s.txActive with
  | true => rw [txRequest_of_active _ _ _ _ s ha, txRequest_of_active _ _ _ _ t (h.txActive.trans ha)]; rfl
  | false =>
    rw [txRequest_of_inactive _ _ _ _ s ha, txRequest_of_inactive _ _ _ _ t (h.txActive.trans ha)]
    unfold afterTxReq
    split
    · obtain ⟨b, n, l, d, rfl⟩ := h.exists_eq
      exact ⟨rfl, h.2⟩
    · exact alike_afterTx h _ _

theorem blind_txAccount : Blind txAccount := by
  intro s t h
  obtain ⟨b, n, l, d, rfl⟩ := h.exists_eq
  unfold txAccount
  simp only
  split <;> exact ⟨rfl, h.2⟩

theorem blind_transmit (dst src cmd : Byte) (payload : List Byte) : Blind (transmit dst src cmd payload) :=
  fun s t h => alikeOutcomes_andThen (blind_txRequest dst src cmd payload s t h) fun u v _ _ => blind_txAccount u v

theorem blind_errorResponse (dst : Byte) (e : ErrCode) : Blind (errorResponse dst e) := by
  intro s t h
  obtain ⟨b, n, l, d, rfl⟩ := h.exists_eq
  exact blind_transmit dst s.myAddr codeErrorResp (errorPayload e s) _ _ h

theorem blind_runHandler (g : Handler) (p : Packet) : Blind (runHandler g p) := by
  intro s t h
  obtain ⟨b, n, l, d, rfl⟩ := h.exists_eq
  cases g with
  | ping => exact blind_transmit p.src s.myAddr codePingResp [] _ _ h
  | getVersion => exact blind_transmit p.src s.myAddr codeGetVerResp (versionPayload s) _ _ h
  | heartbeat => exact blind_transmit p.src s.myAddr codeHeartbeatResp (heartbeatPayload s) _ _ h
  | getStatus => exact blind_transmit p.src s.myAddr codeGetStatusResp (statusPayload s) _ _ h
  | external id =>
    simp only [runHandler, externalReply]
    split
    · exact ⟨rfl, h.2⟩
    · exact blind_transmit _ s.myAddr _ _ _ _ ⟨rfl, h.2⟩

theorem blind_dispatchPacket (p : Packet) : Blind (dispatchPacket p) := by
  intro s t h
  have ha : addressed p t = addressed p s := by rw [h.1]; rfl
  unfold dispatchPacket
  rw [ha]
  split
  · obtain ⟨b, n, l, d, rfl⟩ := h.exists_eq
    simp only [handlerOf]
    split
    · exact blind_runHandler _ p _ _ ⟨rfl, h.2⟩
    · exact blind_errorResponse p.src .invalidCommand _ _ ⟨rfl, h.2⟩
  · exact h

theorem blind_consume (e : Emission) : Blind (consume e) := by
  cases e with
  | frameValid p => exact blind_dispatchPacket p
  | frameCrcError src => exact blind_errorResponse src .invalidChecksum

/-! The assembler: a byte of the buffer is read below the fill index, the length once it is latched, the timestamp out
of Idle. -/

/-- In Idle the timestamp is not read. -/
theorem AlikeButUnread.idleExpired_eq {s t : State} (h : AlikeButUnread s t) (now : Word32) :
    idleExpired now t = idleExpired now s := by
  have ⟨_, _, _, hts⟩ := h
  unfold idleExpired
  rw [h.idx]
  by_cases h0 : 0 < s.idx
  · rw [hts h0]
  · simp [h0]

/-- In Idle states are alike when the other fields are equal. -/
theorem AlikeButUnread.of_idle {s t : State}
    (he : t = { s with buf := t.buf, expLen := t.expLen, lastTs := t.lastTs, crc := t.crc }) (h0 : s.idx = 0) :
    AlikeButUnread s t :=
  ⟨he, fun _ hi => by omega, fun _ => by omega, fun _ => by omega⟩

theorem alike_arrive {s t : State} (h : AlikeButUnread s t) (now : Word32) :
    AlikeButUnread (arrive now s) (arrive now t) := by
  have ⟨he, hb, hl, _⟩ := h
  unfold arrive
  rw [h.idleExpired_eq now]
  split
  · exact .of_idle (by rw [he]; rfl) rfl
  · exact ⟨by rw [he], hb, hl, fun _ => rfl⟩

theorem alike_appended {s t : State} (hs : Memory.wf s.buf = true) (ht : Memory.wf t.buf = true)
    (h : AlikeButUnread s t) (h0 : 0 < s.idx) (b : Byte) : AlikeButUnread (appended b s) (appended b t) := by
  have ⟨he, hb, hl, hts⟩ := h
  rw [appended_eq, appended_eq, h.idx]
  refine ⟨by rw [he], fun i hi => ?_, fun h5 => ?_, fun _ => hts h0⟩
  · simp only [Memory.read_write _ _ _ _ hs, Memory.read_write _ _ _ _ ht]
    split
    · rfl
    · next hne => exact hb i (by simp at hi; omega)
  · simp only
    split
    · next h4 => simp [Memory.read_write _ _ _ _ hs, Memory.read_write _ _ _ _ ht, h4]
    · next h4 => exact hl (by simp at h5; omega)

theorem AlikeButUnread.structurallyComplete_eq {s t : State} (h : AlikeButUnread s t) :
    structurallyComplete t = structurallyComplete s := by
  have ⟨_, _, hl, _⟩ := h
  unfold structurallyComplete
  rw [h.idx]
  by_cases h8 : 8 ≤ s.idx
  · rw [hl (by omega)]
  · simp [h8]

/-- The accumulated bytes lie below the fill index. -/
theorem AlikeButUnread.frame_eq {s t : State} (h : AlikeButUnread s t) :
    (List.range t.idx).map (Memory.read t.buf) = (List.range s.idx).map (Memory.read s.buf) := by
  rw [h.idx]
  exact List.map_congr_left fun i hi => h.2.1 i (List.mem_range.1 hi)

/-- Results of the assembler with alike states and the same output. -/
def AlikeResults (x y : State × Option Emission) : Prop := AlikeButUnread x.1 y.1 ∧ y.2 = x.2

theorem alike_finished {s t : State} (h : AlikeButUnread s t) : AlikeResults (finished s) (finished t) := by
  have ⟨he, hb, _, _⟩ := h
  unfold finished
  rw [h.structurallyComplete_eq, h.frame_eq, h.idx]
  split
  · next hc =>
    have h8 : 8 ≤ s.idx := by
      simp only [structurallyComplete, Bool.and_eq_true, decide_eq_true_eq] at hc; exact hc.1
    rw [hb (s.idx - 1) (by omega)]
    split
    · exact ⟨.of_idle (by rw [he]; rfl) rfl, rfl⟩
    · exact ⟨.of_idle (by rw [he]; rfl) rfl, rfl⟩
  · exact ⟨h, rfl⟩

theorem alike_assembled {s t : State} (hs : Memory.wf s.buf = true) (ht : Memory.wf t.buf = true)
    (h : AlikeButUnread s t) (b : Byte) (now : Word32) : AlikeResults (assembled b now s) (assembled b now t) := by
  have ha := alike_arrive h now
  have ⟨he, hb, hl, hts⟩ := ha
  unfold assembled
  simp only
  rw [ha.idx]
  split
  · refine ⟨?_, rfl⟩
    simp only
    split
    · refine ⟨by rw [he], fun i hi => ?_, by simp, fun _ => rfl⟩
      obtain rfl : i = 0 := by simpa using hi
      simp [Memory.read_write _ _ _ _ hs, Memory.read_write _ _ _ _ ht]
    · exact ha
  · next h0 =>
    split
    · exact ⟨.of_idle (by rw [he]; rfl) rfl, rfl⟩
    · exact alike_finished (alike_appended (by simpa using hs) (by simpa using ht) ha (by omega) b)

theorem receiveByte_alike {s t : State} (hs : Memory.wf s.buf = true) (ht : Memory.wf t.buf = true)
    (h : AlikeButUnread s t) (b : Byte) (now : Word32) :
    AlikeOutcomes (receiveByte b now s) (receiveByte b now t) := by
  obtain ⟨ha, he⟩ := alike_assembled hs ht h b now
  rw [receiveByte_eq, receiveByte_eq, he]
  split
  · exact ha
  · exact blind_consume _ _ _ ha

theorem AlikeButUnread.gateClosed_eq {s t : State} (h : AlikeButUnread s t) : gateClosed t = gateClosed s := by
  unfold gateClosed
  rw [h.drive, h.rxSuppress]

theorem AlikeButUnread.overtaken_eq {s t : State} (h : AlikeButUnread s t) : overtaken t = overtaken s := by
  unfold overtaken
  rw [h.lost, h.gateClosed_eq]

theorem lineArrival_alike {s t : State} (hs : Memory.wf s.buf = true) (ht : Memory.wf t.buf = true)
    (h : AlikeButUnread s t) (b : Byte) (now : Word32) :
    AlikeOutcomes (lineArrival b now s) (lineArrival b now t) := by
  unfold lineArrival
  rw [h.gateClosed_eq]
  split
  · exact h
  · exact receiveByte_alike hs ht h b now

theorem lineArrival_wf {b : Byte} {now : Word32} {s t : State} (hs : Memory.wf s.buf = true)
    (h : lineArrival b now s = .next t) : Memory.wf t.buf = true := by
  rcases lineArrival_cases h with ⟨-, rfl⟩ | ⟨-, h⟩
  · exact hs
  · rw [(receiveByte_from h).sameAssembler.buf]; exact assembled_wf b now hs

theorem AlikeButUnread.lose {s t : State} (h : AlikeButUnread s t) :
    AlikeButUnread { s with lost := s.lost - 1 } { t with lost := t.lost - 1 } := by
  obtain ⟨b, n, l, d, rfl⟩ := h.exists_eq
  exact ⟨rfl, h.2⟩

theorem deliver_alike (bs : List Byte) (now : Word32) {s t : State} (hs : Memory.wf s.buf = true)
    (ht : Memory.wf t.buf = true) (h : AlikeButUnread s t) :
    AlikeOutcomes (deliver bs now s) (deliver bs now t) := by
  induction bs generalizing s t with
  | nil => exact h
  | cons b bs ih =>
    unfold deliver
    rw [h.overtaken_eq]
    split
    · exact ih hs ht h.lose
    · exact alikeOutcomes_andThen (lineArrival_alike hs ht h b now) fun u v hu hv huv =>
        ih (lineArrival_wf hs hu) (lineArrival_wf ht hv) huv

/-! The steps of the sequence, and every operation. -/

theorem alike_inTurn {p : Phase} {k : State → Res} {s t : State} (hp : t.phase = s.phase)
    (hk : AlikeOutcomes (k s) (k t)) : AlikeOutcomes (inTurn p k s) (inTurn p k t) := by
  unfold inTurn
  rw [hp]
  split
  · exact hk
  · rfl

theorem alike_inTurn_next {p : Phase} {f : State → State} {s t : State} (hp : t.phase = s.phase)
    (h : AlikeButUnread (f s) (f t)) :
    AlikeOutcomes (inTurn p (fun u => .next (f u)) s) (inTurn p (fun u => .next (f u)) t) :=
  alike_inTurn (k := fun u => .next (f u)) hp h

theorem blind_returnToCaller : Blind returnToCaller := by
  intro s t h
  obtain ⟨b, n, l, d, rfl⟩ := h.exists_eq
  unfold returnToCaller
  simp only
  split
  · exact h
  · exact ⟨rfl, h.2⟩
  · exact blind_txAccount _ _ ⟨rfl, h.2⟩

theorem blind_txStep {i : Instr} (hi : isTxStep i = true) : Blind (exec i) := by
  intro s t h
  obtain ⟨b, n, l, d, rfl⟩ := h.exists_eq
  exact match i, hi with
  | .txA, rfl => alike_inTurn_next rfl ⟨rfl, h.2⟩
  | .txB, rfl => alike_inTurn_next rfl ⟨rfl, h.2⟩
  | .txC, rfl => alike_inTurn_next rfl ⟨rfl, h.2⟩
  | .txD, rfl => alike_inTurn_next rfl ⟨rfl, h.2⟩
  | .txE _, rfl => alike_inTurn_next rfl ⟨rfl, h.2⟩
  | .txF, rfl => alike_inTurn_next rfl ⟨rfl, h.2⟩
  | .txG, rfl => alike_inTurn_next rfl ⟨rfl, h.2⟩
  | .txH, rfl => alike_inTurn (k := fun u => returnToCaller (txStepH u)) rfl (blind_returnToCaller _ _ ⟨rfl, h.2⟩)

theorem blind_execReset (a : BootParams) : Blind (execReset a) := by
  intro s t h
  have hb : boot a t = boot a s := by rw [h.1]; rfl
  unfold execReset
  rw [hb]
  split
  · rfl
  · exact .refl _

theorem exec_alike (i : Instr) {s t : State} (hs : Memory.wf s.buf = true) (ht : Memory.wf t.buf = true)
    (h : AlikeButUnread s t) : AlikeOutcomes (exec i s) (exec i t) := by
  obtain ⟨b, n, l, d, rfl⟩ := h.exists_eq
  cases kind_of i with
  | frame _ _ hx => rw [hx, hx]; exact deliver_alike _ s.clock hs ht h
  | rxByte b now => exact receiveByte_alike hs ht h b now
  | lineByte b now => exact lineArrival_alike hs ht h b now
  | txReq dst src cmd payload => exact blind_txRequest _ _ _ _ _ _ h
  | request dst cmd src payload _ hx => rw [hx, hx]; exact blind_transmit dst (src s.myAddr) cmd _ _ _ h
  | handler g p _ hx => rw [hx, hx]; exact blind_runHandler g p _ _ h
  | dispatch p => exact blind_dispatchPacket p _ _ h
  | codec c r _ hx => rw [hx, hx]; exact ⟨rfl, h.2⟩
  | shortDecode bs hb => simp [exec, execDecode, hb, AlikeOutcomes]
  | txStep hi => exact blind_txStep hi _ _ h
  | register c g => exact ⟨rfl, h.2⟩
  | tick ms => exact ⟨rfl, h.2⟩
  | setHealth v => exact ⟨rfl, h.2⟩
  | reset a => exact blind_execReset a _ _ h

/-! The fetch and the step. -/

/-- The same instruction, from states that are alike, or outcomes that are alike. -/
inductive AlikeFetched : Fetched → Fetched → Prop
  | run {i : Instr} {u v : State} (hu : Memory.wf u.buf = true) (hv : Memory.wf v.buf = true)
      (h : AlikeButUnread u v) : AlikeFetched (.run i u) (.run i v)
  | answer {r q : Res} (h : AlikeOutcomes r q) : AlikeFetched (.answer r) (.answer q)

theorem blind_openRequest (c : Caller) (dst src cmd : Byte) (payload : List Byte) :
    Blind (openRequest c dst src cmd payload) := by
  intro s t h
  obtain ⟨b, n, l, d, rfl⟩ := h.exists_eq
  unfold openRequest
  simp only
  split
  · rfl
  · split
    · exact ⟨rfl, h.2⟩
    · exact ⟨rfl, h.2⟩

section Fetch
variable {s t : State} (hs : Memory.wf s.buf = true) (ht : Memory.wf t.buf = true) (h : AlikeButUnread s t)
include hs ht h

theorem fetchWire_alike (now : Word32) (bs : List Byte) (rest : List Input) :
    AlikeFetched (fetchWire now bs rest s) (fetchWire now bs rest t) := by
  unfold fetchWire
  rw [h.overtaken_eq]
  obtain ⟨b, n, l, d, rfl⟩ := h.exists_eq
  split
  · exact .answer ⟨rfl, h.2⟩
  · split
    · exact .run hs ht ⟨rfl, h.2⟩
    · split
      · exact .answer ⟨rfl, h.2⟩
      · exact .run hs ht ⟨rfl, h.2⟩

theorem dueStep_alike : (dueStep s = none ∧ dueStep t = none) ∨
    ∃ i u v, dueStep s = some (i, u) ∧ dueStep t = some (i, v) ∧ AlikeFetched (.run i u) (.run i v) := by
  obtain ⟨b, n, l, d, rfl⟩ := h.exists_eq
  unfold dueStep
  simp only
  split
  · exact .inl ⟨rfl, rfl⟩
  · exact .inr ⟨_, _, _, rfl, rfl, .run hs ht h⟩
  · exact .inr ⟨_, _, _, rfl, rfl, .run hs ht h⟩
  · exact .inr ⟨_, _, _, rfl, rfl, .run hs ht h⟩
  · exact .inr ⟨_, _, _, rfl, rfl, .run hs ht h⟩
  · exact .inr ⟨_, _, _, rfl, rfl, .run (by simpa using hs) (by simpa using ht) (alike_dropDraw h)⟩
  · exact .inr ⟨_, _, _, rfl, rfl, .run hs ht h⟩
  · exact .inr ⟨_, _, _, rfl, rfl, .run hs ht h⟩
  · exact .inr ⟨_, _, _, rfl, rfl, .run hs ht h⟩

theorem fetch_alike : AlikeFetched (fetch s) (fetch t) := by
  obtain ⟨b, n, l, d, rfl⟩ := h.exists_eq
  unfold fetch
  simp only
  split
  · exact .run hs ht ⟨rfl, h.2⟩
  · split
    · rcases dueStep_alike hs ht h with ⟨hu, hv⟩ | ⟨i, u, v, hu, hv, hf⟩ <;> rw [hu, hv]
      · exact .answer h
      · exact hf
    · exact fetchWire_alike hs ht h _ _ _
    · exact fetchWire_alike hs ht h _ _ _
    · split
      · exact .answer rfl
      · exact .run hs ht ⟨rfl, h.2⟩
    · exact .answer (blind_openRequest _ _ _ _ _ _ _ ⟨rfl, h.2⟩)

theorem step_alike : AlikeOutcomes (step s) (step t) := by
  have hf := fetch_alike hs ht h
  unfold step
  generalize fetch s = f at hf ⊢
  generalize fetch t = g at hf ⊢
  cases hf with
  | run hu hv huv => exact exec_alike _ hu hv huv
  | answer hrq => exact hrq

end Fetch

/-- Settles O60: the fetch takes alike states to the same instruction, and every instruction keeps them alike. -/
theorem unspecifiedStateIsNeverRead : Obligations.UnspecifiedStateIsNeverRead :=
  fun _ _ hs ht h => step_alike hs ht h

end Sys2Proof.Machine
end


section
/-! PROOF. Encoding (30 R90, R97, R99, R110): what the decoder reads is exactly the bytes of a frame, a command code selects
the instruction that encodes with it, and a step executes what the fetch finds (O14 to O17). -/

namespace Sys2Proof.Machine

open Sys2Proof

/-! The two checksum bytes, low byte first (R97). -/

theorem highByte_append_lowByte (w : Word16) : w.extractLsb' 8 8 ++ w.extractLsb' 0 8 = w :=
  (BitVec.extractLsb'_append_extractLsb'_eq_extractLsb' (len₁ := 8) (len₂ := 8) rfl).trans BitVec.extractLsb'_eq_self

theorem le16_append (h l : Byte) : le16 (h ++ l) = [l, h] :=
  congrArg₂ (fun x y => [x, y]) BitVec.extractLsb'_append_eq_right BitVec.extractLsb'_append_eq_left

/-! The frame on the line. -/

theorem frameBytes_eq (c : Byte) (f : FrameFields) (rest : List Byte) :
    frameBytes c f ++ rest = startMarker :: f.dst :: f.src :: c :: BitVec.ofNat 8 f.payload.length ::
      (f.payload ++ le16 f.crc ++ f.fin :: rest) := by
  simp [frameBytes, le16]

/-- The length byte splits what follows it in one way only (R99). -/
theorem splitBody_eq_some {n : Nat} {bs p rest : List Byte} {w : Word16} {e : Byte} :
    splitBody n bs = some (p, w, e, rest) ↔ p.length = n ∧ bs = p ++ le16 w ++ e :: rest := by
  constructor
  · intro h
    unfold splitBody at h
    split at h
    · next hn =>
      split at h
      · next l u e' rest' hd =>
        cases h
        refine ⟨List.length_take_of_le hn, ?_⟩
        rw [le16_append, List.append_assoc]
        exact (List.take_append_drop n bs).symm.trans (by rw [hd]; rfl)
      · cases h
    · cases h
  · rintro ⟨rfl, rfl⟩
    simp [splitBody, le16, highByte_append_lowByte]

/-- The decoder reads a frame exactly where the bytes of one stand at the head of its input. -/
theorem decode_eq_ok {bs rest : List Byte} {i : Instr} : decode bs = .ok (i, rest) ↔
    ∃ c f, payloadFits f.payload = true ∧ i = ofCode c f ∧ bs = frameBytes c f ++ rest := by
  constructor
  · intro h
    unfold decode at h
    split at h
    · next start dst src c n body =>
      split at h
      · next hs =>
        split at h
        · next p w e tail hb =>
          cases h
          obtain ⟨hp, rfl⟩ := splitBody_eq_some.1 hb
          have hn := n.isLt
          refine ⟨c, ⟨dst, src, p, w, e⟩, by simp [payloadFits]; omega, rfl, ?_⟩
          rw [frameBytes_eq, hs, hp, BitVec.ofNat_toNat, BitVec.setWidth_eq]
        · cases h
      · cases h
    · split at h <;> cases h
    · cases h
  · rintro ⟨c, f, hf, rfl, rfl⟩
    have hp : f.payload.length = (BitVec.ofNat 8 f.payload.length).toNat := by
      have : f.payload.length ≤ 255 := by simpa [payloadFits] using hf
      simp; omega
    rw [frameBytes_eq, decode, if_pos rfl, splitBody_eq_some.2 ⟨hp, rfl⟩]

/-! The instruction of a command code (R110). -/

theorem mem_of_rowOf {c : Byte} {mk : FrameFields → Instr} {rows : List FrameRow} (h : rowOf c rows = some mk) :
    (c, mk) ∈ rows := by
  induction rows with
  | nil => cases h
  | cons row rows ih =>
    obtain ⟨k, g⟩ := row
    unfold rowOf at h
    split at h
    · next hk => cases h; subst hk; exact List.mem_cons_self
    · exact List.mem_cons_of_mem _ (ih h)

/-- Every row of the table encodes with its own code, and asks of its operands only that the payload fits. -/
theorem frameRows_encode (f : FrameFields) : ∀ row ∈ frameRows,
    encode (row.2 f) = some (frameBytes row.1 f) ∧ wellFormed (row.2 f) = payloadFits f.payload := by
  simp [frameRows, encode, wellFormed]

theorem ofCode_encode (c : Byte) (f : FrameFields) :
    encode (ofCode c f) = some (frameBytes c f) ∧ wellFormed (ofCode c f) = payloadFits f.payload := by
  unfold ofCode
  split
  · next mk h => exact frameRows_encode f (c, mk) (mem_of_rowOf h)
  · next h => exact ⟨rfl, by simp [wellFormed, unassignedCode, h]⟩

/-- A well-formed instruction that has bytes is the one its code selects, for each of the seventeen FRAME rows. -/
theorem exists_eq_ofCode {i : Instr} (hw : wellFormed i = true) (he : encode i ≠ none) : ∃ c f, i = ofCode c f := by
  cases i with
  | fPing f => exact ⟨codePing, f, rfl⟩
  | fPingResp f => exact ⟨codePingResp, f, rfl⟩
  | fGetVer f => exact ⟨codeGetVer, f, rfl⟩
  | fGetVerResp f => exact ⟨codeGetVerResp, f, rfl⟩
  | fHeartbeat f => exact ⟨codeHeartbeat, f, rfl⟩
  | fHeartbeatResp f => exact ⟨codeHeartbeatResp, f, rfl⟩
  | fGetStatus f => exact ⟨codeGetStatus, f, rfl⟩
  | fGetStatusResp f => exact ⟨codeGetStatusResp, f, rfl⟩
  | fReadDin f => exact ⟨codeReadDin, f, rfl⟩
  | fReadDinResp f => exact ⟨codeReadDinResp, f, rfl⟩
  | fWriteDout f => exact ⟨codeWriteDout, f, rfl⟩
  | fWriteDoutResp f => exact ⟨codeWriteDoutResp, f, rfl⟩
  | fReadDout f => exact ⟨codeReadDout, f, rfl⟩
  | fReadAnalog f => exact ⟨codeReadAnalog, f, rfl⟩
  | fReadAnalogResp f => exact ⟨codeReadAnalogResp, f, rfl⟩
  | fErrorResp f => exact ⟨codeErrorResp, f, rfl⟩
  | fUnassignedCmd c f =>
    have hc : rowOf c frameRows = none := by
      simp only [wellFormed, unassignedCode, Bool.and_eq_true, Option.isNone_iff_eq_none] at hw
      exact hw.1
    exact ⟨c, f, by rw [ofCode, hc]⟩
  | _ => exact absurd rfl he

/-- Settles O14: a well-formed instruction with bytes is the one its code selects, and the decoder reads such a frame
back. -/
theorem decodeReadsBackEveryFrame : Obligations.DecodeReadsBackEveryFrame := by
  intro i bs rest hw he
  obtain ⟨c, f, rfl⟩ := exists_eq_ofCode hw (by simp [he])
  obtain ⟨hb, hf⟩ := ofCode_encode c f
  obtain rfl : bs = frameBytes c f := Option.some.inj (he.symm.trans hb)
  exact decode_eq_ok.2 ⟨c, f, hf.symm.trans hw, rfl, rfl⟩

/-- Settles O15: what the decoder reads is selected by a code, and encodes with that code. -/
theorem decodeReadsOnlyEncodings : Obligations.DecodeReadsOnlyEncodings := by
  intro i bs rest h
  obtain ⟨c, f, hf, rfl, rfl⟩ := decode_eq_ok.1 h
  obtain ⟨hb, hw⟩ := ofCode_encode c f
  exact ⟨hw.trans hf, frameBytes c f, hb, rfl⟩

/-- Settles O16: the four frames are the encoder's own bytes, read back by O14; the two refusals are computed. -/
theorem writtenOutFramesDecode : Obligations.WrittenOutFramesDecode :=
  ⟨decodeReadsBackEveryFrame (.fPing ⟨0x02, 0x10, [], 0xC901, 0x55⟩) _ [] rfl rfl,
    decodeReadsBackEveryFrame (.fErrorResp ⟨0x10, 0x02, [0x03, 0x02], 0xAE6B, 0x55⟩) _ [] rfl rfl,
    decodeReadsBackEveryFrame (.fUnassignedCmd 0x99 ⟨0x02, 0x10, [], 0x096A, 0x55⟩) _ [] rfl rfl,
    decodeReadsBackEveryFrame (.fWriteDout ⟨0x01, 0x10, [0xAA, 0x55, 0x00], 0x6056, 0x55⟩) _ [] rfl rfl,
    rfl, rfl⟩

/-! The fetch, one equation for each kind of input. -/

theorem step_of_run {s t : State} {i : Instr} (h : fetch s = .run i t) : step s = exec i t := by
  unfold step; rw [h]

theorem step_of_answer {s : State} {r : Res} (h : fetch s = .answer r) : step s = r := by
  unfold step; rw [h]

theorem fetch_phase_a {s : State} (ha : s.phase = .a) : fetch s = .run .txA { s with inbox := dropCallA s.inbox } :=
  if_pos ha

section Inputs
variable {s : State} (ha : s.phase ≠ .a)
include ha

/-- Bytes on the line and a called LINEBYTE are fetched alike. -/
theorem fetch_arrival {t : Word32} {bs : List Byte} {rest : List Input}
    (hi : s.inbox = .wire t bs :: rest ∨ ∃ b, bs = [b] ∧ s.inbox = .call (.lineByte b t) :: rest) :
    fetch s = fetchWire t bs rest s := by
  unfold fetch
  rw [if_neg ha]
  rcases hi with hi | ⟨b, rfl, hi⟩ <;> rw [hi]

theorem fetch_call {i : Instr} {rest : List Input} (hi : s.inbox = .call i :: rest) (hl : ∀ b t, i ≠ .lineByte b t) :
    fetch s = if s.txActive && !allowedDuringTransmit i then .answer (.refused .insideTransmit)
      else .run i { s with inbox := rest, lost := lostAfterCall i s } := by
  unfold fetch
  rw [if_neg ha, hi]
  cases i with
  | lineByte b t => exact absurd rfl (hl b t)
  | _ => rfl

theorem fetch_openTx {c : Caller} {dst src cmd : Byte} {p : List Byte} {rest : List Input}
    (hi : s.inbox = .openTx c dst src cmd p :: rest) :
    fetch s = .answer (openRequest c dst src cmd p { s with inbox := rest, lost := 0 }) := by
  unfold fetch
  rw [if_neg ha, hi]

theorem fetch_empty_due {i : Instr} {t : State} (hi : s.inbox = []) (hd : dueStep s = some (i, t)) :
    fetch s = .run i t := by
  simp [fetch, ha, hi, hd]

end Inputs

theorem fetch_empty_listen {s : State} (hi : s.inbox = []) (hp : s.phase = .listen) : fetch s = .answer (.next s) := by
  simp [fetch, hp, hi, dueStep]

section Wire
variable {t : Word32} {bs : List Byte} {rest : List Input} {s : State}

theorem fetchWire_overtaken (ho : overtaken s = true) : fetchWire t bs rest s =
    .answer (.next { s with clock := t, lost := s.lost - bs.length, inbox := putBack t (bs.drop s.lost) rest }) :=
  if_pos ho

theorem fetchWire_frame (ho : overtaken s = false) {i : Instr} {tail : List Byte} (hd : decode bs = .ok (i, tail)) :
    fetchWire t bs rest s = .run i { s with clock := t, inbox := putBack t tail rest } := by
  simp [fetchWire, ho, hd]

theorem fetchWire_byte (ho : overtaken s = false) {b : Byte} {tail : List Byte} {e : DecodeError}
    (hd : decode (b :: tail) = .error e) :
    fetchWire t (b :: tail) rest s = .run (.lineByte b t) { s with clock := t, inbox := putBack t tail rest } := by
  simp [fetchWire, ho, hd]

end Wire

/-- Settles O17: each clause is the fetch's equation for that input. -/
theorem stepRunsTheFetchedInstruction : Obligations.StepRunsTheFetchedInstruction := by
  intro s
  refine ⟨fun ha => step_of_run (fetch_phase_a ha), fun ha => ⟨?_, ?_, ?_, ?_, ?_⟩⟩
  · intro t bs rest hi
    have hf := fetch_arrival ha hi
    refine ⟨fun ho => step_of_answer (hf.trans (fetchWire_overtaken ho)), fun ho => ⟨?_, ?_⟩⟩
    · exact fun i tail hd => step_of_run (hf.trans (fetchWire_frame ho hd))
    · rintro b tail e rfl hd
      exact step_of_run (hf.trans (fetchWire_byte ho hd))
  · intro i rest hi hl
    have hf := fetch_call ha hi hl
    refine ⟨fun hx => step_of_run (hf.trans (if_neg ?_)), fun hx hn => step_of_answer (hf.trans (if_pos ?_))⟩
    · rcases hx with hx | hx <;> simp [hx]
    · simp [hx, hn]
  · exact fun c dst src cmd p rest hi => step_of_answer (fetch_openTx ha hi)
  · exact fun i t hi hd => step_of_run (fetch_empty_due ha hi hd)
  · exact fun hi hp => step_of_answer (fetch_empty_listen hi hp)

end Sys2Proof.Machine
end

section
/-! PROOF. The CRC Engine (40 R130 to R135; O1 to O6): one shift loses nothing, a byte shifts its bits in one
after another, and every checksum is CRC.INIT and then CRC.BYTE over the bytes it covers. -/

namespace Sys2Proof.Machine

open Sys2Proof

/-! The operations, one equation each; ENCODE and DECODE where they compute a checksum. -/

theorem exec_crc16 (bs : List Byte) (s : State) :
    exec (.crc16 bs) s = .next { s with crc := crcOf bs, ret := .crc (crcOf bs) } := rfl

theorem exec_crcInit (s : State) : exec .crcInit s = .next { s with crc := crcStart } := rfl

theorem exec_crcByte (b : Byte) (s : State) : exec (.crcByte b) s = .next { s with crc := crcStep s.crc b } := rfl

theorem exec_crcBit (d : Bool) (s : State) : exec (.crcBit d) s = .next { s with crc := crcBitStep s.crc d } := rfl

theorem exec_encode_of_le (dst src cmd : Byte) {p : List Byte} (hp : p.length ≤ 250) (s : State) :
    exec (.encode dst src cmd p) s =
      .next { s with
        crc := crcOf (checkedBody dst src cmd p)
        ret := .frame (frameBytes cmd ⟨dst, src, p, crcOf (checkedBody dst src cmd p), endMarker⟩) } := by
  simp only [exec, execEncode, packetEncode, if_neg (show ¬ p.length > maxPayload from Nat.not_lt.2 hp)]

theorem exec_decode_of_ready {bs : List Byte} (h : decodeReady bs = true) (s : State) :
    exec (.decode bs) s = .next { s with crc := computedCrc bs, ret := decodedRet (packetDecode bs) } :=
  if_pos h

/-- The fields DECODE sums are the frame's bytes 1 to `4 + n` (40 R135). -/
theorem computedCrc_eq {bs : List Byte} (h : decodeReady bs = true) :
    computedCrc bs = crcOf ((bs.drop 1).take (4 + (bs.getD 4 0).toNat)) := by
  match bs, h with
  | _ :: _ :: _ :: _ :: n :: rest, _ => simp [computedCrc, payloadOf, Nat.add_comm 4]

/-! The register of a whole computation. -/

theorem crcOf_append (bs cs : List Byte) : crcOf (bs ++ cs) = cs.foldl crcStep (crcOf bs) := List.foldl_append

/-- A run over a sequence goes on from the outcome of a run over its prefix (40 R134 (2)). -/
theorem crcRun_append (bs cs : List Byte) (s : State) :
    crcRun (bs ++ cs) s = cs.foldl (fun r b => andThen r (exec (.crcByte b))) (crcRun bs s) := List.foldl_append

/-! One iteration and one bit. -/

theorem crcShift_eq (c : Word16) : crcShift c = (c >>> 1) ^^^ if c.getLsbD 0 then crcPoly else 0 := by
  unfold crcShift; split <;> simp

/-- The data bit only decides whether the polynomial enters: it meets bit 0 of the register (40 R133). -/
theorem crcBitStep_eq (c : Word16) (d : Bool) :
    crcBitStep c d = if c.getLsbD 0 = d then c >>> 1 else (c >>> 1) ^^^ crcPoly := by
  unfold crcBitStep
  cases c.getLsbD 0 <;> cases d <;> rfl

/-- A register with the data in it shifts as one CRC.BIT with the data's bit 0, the rest of the data waiting. -/
theorem crcShift_xor (c x : Word16) : crcShift (c ^^^ x) = crcBitStep c (x.getLsbD 0) ^^^ (x >>> 1) := by
  rw [crcShift_eq, crcBitStep_eq, BitVec.ushiftRight_xor_distrib, BitVec.getLsbD_xor]
  cases c.getLsbD 0 <;> cases x.getLsbD 0 <;> simp [BitVec.xor_assoc, BitVec.xor_comm crcPoly]

/-- `n` iterations take in the lowest `n` data bits as `n` CRC.BIT do, lowest first. -/
theorem repeatN_crcShift_xor (n : Nat) (c x : Word16) :
    repeatN n crcShift (c ^^^ x) = ((List.range n).map x.getLsbD).foldl crcBitStep c ^^^ (x >>> n) := by
  induction n generalizing c x with
  | zero => simp [repeatN]
  | succ n ih =>
    have hbits : (List.range (n + 1)).map x.getLsbD = x.getLsbD 0 :: (List.range n).map (x >>> 1).getLsbD := by
      simp [List.range_succ_eq_map, Function.comp_def, Nat.add_comm 1]
    rw [repeatN, crcShift_xor, ih, hbits, List.foldl_cons, ← BitVec.shiftRight_add, Nat.add_comm 1]

/-- CRC.BYTE is CRC.BIT over the bits of the byte, bit 0 first (40 R133). -/
theorem crcStep_eq_foldl_bitsOf (c : Word16) (b : Byte) : crcStep c b = (bitsOf b).foldl crcBitStep c := by
  have hgone : b.setWidth 16 >>> 8 = 0 := by
    ext i hi
    simp
  have hbits : (List.range 8).map (b.setWidth 16).getLsbD = bitsOf b := rfl
  rw [crcStep, repeatN_crcShift_xor, hgone, hbits]
  exact BitVec.xor_zero

/-! Nothing is lost (41 R159). -/

/-- The feedback shows in bit 15, which the shift has cleared. -/
theorem crcShift_getLsbD_fifteen (c : Word16) : (crcShift c).getLsbD 15 = c.getLsbD 0 := by
  rw [crcShift_eq]
  cases c.getLsbD 0 <;> simp [crcPoly]

theorem crcShift_injective : Function.Injective crcShift := by
  intro c d h
  have hzero : c.getLsbD 0 = d.getLsbD 0 := by
    rw [← crcShift_getLsbD_fifteen, h, crcShift_getLsbD_fifteen]
  have hshift : c >>> 1 = d >>> 1 := by
    rwa [crcShift_eq, crcShift_eq, hzero, BitVec.xor_left_inj] at h
  refine BitVec.eq_of_getLsbD_eq fun i _ => ?_
  cases i with
  | zero => exact hzero
  | succ i => simpa [Nat.add_comm 1] using congrArg (·.getLsbD i) hshift

theorem repeatN_eq_iterate (n : Nat) (f : Word16 → Word16) : repeatN n f = f^[n] := by
  induction n with
  | zero => rfl
  | succ n ih => exact congrArg (· ∘ f) ih

/-! The residue (40 R134 (4)). -/

/-- Bits that are all clear are shifted out without feedback. -/
theorem repeatN_crcShift_of_low_clear {n : Nat} {c : Word16} (h : ∀ i < n, c.getLsbD i = false) :
    repeatN n crcShift c = c >>> n := by
  induction n generalizing c with
  | zero => rw [repeatN, BitVec.ushiftRight_zero]
  | succ n ih =>
    have hfirst : crcShift c = c >>> 1 := by rw [crcShift, h 0 n.succ_pos]; rfl
    rw [repeatN, hfirst, ih fun i hi => by simpa [Nat.add_comm 1] using h (i + 1) (by omega), ← BitVec.shiftRight_add,
      Nat.add_comm 1]

/-- The register's own low byte clears the low half, and the high half moves down. -/
theorem crcStep_lowByte (c : Word16) : crcStep c (c.extractLsb' 0 8) = c >>> 8 := by
  rw [crcStep, repeatN_crcShift_of_low_clear]
  · ext i hi; simp
  · intro i hi; simp [hi]; omega

/-! The obligations. -/

/-- Settles O1: by `crcRun_eq` CRC.INIT and CRC.BYTE leave `crcOf`, and so does each of the three computations. -/
theorem crcInitBeginsEveryComputation : Obligations.CrcInitBeginsEveryComputation := by
  refine ⟨exec_crcInit, ?_, ?_, ?_, ?_, ?_, ?_⟩
  · exact fun s bs => ⟨crcOf bs, crcRun_eq bs s, exec_crc16 bs s⟩
  · exact fun s dst src cmd p hp =>
      ⟨crcOf (checkedBody dst src cmd p), _, crcRun_eq _ s, exec_encode_of_le dst src cmd hp s, rfl⟩
  · intro s bs h
    refine ⟨computedCrc bs, _, ?_, exec_decode_of_ready h s, rfl⟩
    rw [crcRun_eq, computedCrc_eq h]
  · intro s c bs
    rw [exec_crc16, exec_crc16]
  · intro s c dst src cmd p hp
    rw [exec_encode_of_le _ _ _ hp, exec_encode_of_le _ _ _ hp]
  · intro s c bs h
    rw [exec_decode_of_ready h, exec_decode_of_ready h]

/-- Settles O3: the bits of the byte go into the register one after another. -/
theorem eightCrcBitsAreOneCrcByte : Obligations.EightCrcBitsAreOneCrcByte := by
  intro s b
  rw [exec_crcByte, crcStep_eq_foldl_bitsOf]
  rfl

/-- Settles O4: CRC16 and the run both leave `crcOf`, and a run over `bs ++ cs` goes on from the run over `bs`. -/
theorem crcSixteenRunsOverEveryByte : Obligations.CrcSixteenRunsOverEveryByte := by
  refine ⟨fun s bs => ⟨crcOf bs, exec_crc16 bs s, crcRun_eq bs s⟩, fun s bs cs => ?_, exec_crc16 []⟩
  exact ⟨crcOf bs, crcRun_eq bs s, by rw [crcRun_append, crcRun_eq]⟩

/-- Settles O5: each checksum byte is the low byte of the register it meets, so the register is shifted empty. -/
theorem crcResidueIsZero : Obligations.CrcResidueIsZero := by
  intro bs
  have hhigh (c : Word16) : c.extractLsb' 8 8 = (c >>> 8).extractLsb' 0 8 := by ext i hi; simp
  calc crcOf (bs ++ le16 (crcOf bs))
      = crcStep (crcStep (crcOf bs) ((crcOf bs).extractLsb' 0 8)) ((crcOf bs).extractLsb' 8 8) := crcOf_append bs _
    _ = crcOf bs >>> 8 >>> 8 := by rw [crcStep_lowByte, hhigh, crcStep_lowByte]
    _ = 0 := by rw [← BitVec.shiftRight_add]; exact BitVec.ushiftRight_eq_zero (by decide)

/-- Settles O6: the eight iterations are injective, and register and byte enter them by an exclusive-or. -/
theorem crcByteLosesNothing : Obligations.CrcByteLosesNothing := by
  have hinj : Function.Injective (repeatN 8 crcShift) := by
    rw [repeatN_eq_iterate]
    exact crcShift_injective.iterate 8
  refine ⟨fun b c d h => (BitVec.xor_left_inj _).1 (hinj h), fun c a b h => ?_⟩
  have hwide : a.setWidth 16 = b.setWidth 16 := (BitVec.xor_right_inj c).1 (hinj h)
  simpa using congrArg (BitVec.setWidth 8) hwide

/-- Settles O2: `crcStep` and `crcBitStep` are the two pseudocodes. -/
theorem crcByteAndBitUpdateTheRegister : Obligations.CrcByteAndBitUpdateTheRegister := by
  refine ⟨fun s b => exec_crcByte b s, fun s d => ?_⟩
  rw [exec_crcBit, crcBitStep_eq]
  rfl

end Sys2Proof.Machine
end

section
/-! PROOF. The Packet Codec (41 R150 to R159; O7 to O13). What meets DECODE's precondition is a marker byte, the bytes
the checksum covers, the checksum, and bytes that DECODE does not look at; each statement after O10 is read from
DECODE's outcome on that layout. -/

namespace Sys2Proof.Machine

open Sys2Proof

/-! ENCODE and the requests on a payload that is too long (R152). -/

theorem exec_encode_of_gt (dst src cmd : Byte) {p : List Byte} (hp : 250 < p.length) (s : State) :
    exec (.encode dst src cmd p) s = .next { s with ret := .encodeFailure } := by
  simp only [exec, execEncode, packetEncode_eq, if_pos hp, raise_encodeLen, andThen_next]

theorem afterTxReq_of_gt (dst src cmd : Byte) {p : List Byte} (hp : 250 < p.length) (s : State) :
    afterTxReq dst src cmd p s = { s with ret := .tx .encodeLen } := if_pos hp

theorem afterSend_of_gt (dst src cmd : Byte) {p : List Byte} (hp : 250 < p.length) (s : State) :
    afterSend dst src cmd p s = { s with ret := .tx .encodeLen } := by
  unfold afterSend
  rw [afterTxReq_of_gt _ _ _ hp]

/-- Settles O7: the frame is `frameBytes`, written out. -/
theorem encodeBuildsTheFrame : Obligations.EncodeBuildsTheFrame := by
  intro s dst src cmd p
  refine ⟨fun hp => ?_, fun hp => ⟨_, exec_encode_of_gt dst src cmd hp s, rfl⟩⟩
  rw [exec_encode_of_le dst src cmd hp]
  simp [frameBytes, checkedBody, startMarker, endMarker]

/-- Settles O8: ENCODE fails before it computes, and TXREQ and SEND fail with it, before step (a). -/
theorem overlongPayloadChangesNothing : Obligations.OverlongPayloadChangesNothing := by
  intro s dst src cmd p hp
  refine ⟨exec_encode_of_gt dst src cmd hp s, fun hs => ⟨?_, ?_⟩⟩
  · rw [← afterTxReq_of_gt dst src cmd hp]
    exact txRequest_of_inactive _ _ _ _ _ hs
  · rw [← afterSend_of_gt dst src cmd hp]
    exact transmit_of_inactive _ _ _ _ _ hs

/-! DECODE's precondition and its two outcomes. -/

theorem decodeReady_iff (bs : List Byte) :
    decodeReady bs = true ↔ 8 ≤ bs.length ∧ 5 + (bs.getD 4 0).toNat + 3 ≤ bs.length := by
  simp only [decodeReady, Bool.and_eq_true, decide_eq_true_eq]

theorem exec_decode_of_match {bs : List Byte} (h : decodeReady bs = true) (he : computedCrc bs = receivedCrc bs)
    (s : State) : exec (.decode bs) s = .next { s with
      crc := computedCrc bs
      ret := .packet ⟨bs.getD 1 0, bs.getD 2 0, bs.getD 3 0, payloadOf bs, receivedCrc bs⟩ } := by
  rw [exec_decode_of_ready h, packetDecode, if_pos he, decodedRet]

theorem exec_decode_of_mismatch {bs : List Byte} (h : decodeReady bs = true) (he : computedCrc bs ≠ receivedCrc bs)
    (s : State) :
    exec (.decode bs) s = .next { s with crc := computedCrc bs, ret := .checksumMismatch (bs.getD 2 0) } := by
  rw [exec_decode_of_ready h, packetDecode, if_neg he, decodedRet]

/-- Settles O9: the two outcomes of a buffer that meets the precondition. -/
theorem decodeExtractsAndCompares : Obligations.DecodeExtractsAndCompares := by
  intro s bs n payload rx sum h8 hn
  have hready := (decodeReady_iff bs).2 ⟨h8, hn⟩
  exact ⟨fun he => exec_decode_of_match hready he s, fun he => exec_decode_of_mismatch hready he s⟩

/-- Settles O10: the refusal is the other branch of the test of the precondition. -/
theorem decodeOfShortBufferIsRefused : Obligations.DecodeOfShortBufferIsRefused := by
  intro s bs
  rw [← Nat.not_le, ← Nat.not_le, ← not_and_or, ← decodeReady_iff]
  by_cases h : decodeReady bs = true
  · simp [exec_decode_of_ready h, h]
  · simp [exec, execDecode, h]

/-! The layout DECODE reads (R154, R155). -/

/-- A buffer: marker byte, the bytes `body` that the checksum covers, checksum, end byte, and what follows the frame. -/
def codeword (start : Byte) (body : List Byte) (w : Word16) (fin : Byte) (rest : List Byte) : List Byte :=
  start :: (body ++ (le16 w ++ fin :: rest))

/-- The fourth of the covered bytes, the length byte, counts the bytes after it. -/
def Sized (body : List Byte) : Prop := body.length = 4 + (body.getD 3 0).toNat

theorem Sized.length_eq {body : List Byte} (hb : Sized body) : body.length = 4 + (body.getD 3 0).toNat := hb

theorem Sized.four_le {body : List Byte} (hb : Sized body) : 4 ≤ body.length := by
  rw [hb.length_eq]
  exact Nat.le_add_right 4 _

theorem frameBytes_eq_codeword (c : Byte) (f : FrameFields) :
    frameBytes c f = codeword startMarker (checkedBody f.dst f.src c f.payload) f.crc f.fin [] := by
  simp [codeword, frameBytes, checkedBody, le16]

theorem sized_checkedBody (dst src cmd : Byte) {p : List Byte} (hp : p.length ≤ 255) :
    Sized (checkedBody dst src cmd p) := by
  simp [Sized, checkedBody]; omega

/-- Every buffer that meets the precondition has the layout (R154). -/
theorem exists_eq_codeword {bs : List Byte} (h : decodeReady bs = true) :
    ∃ start body w fin rest, Sized body ∧ bs = codeword start body w fin rest := by
  obtain ⟨h8, hn⟩ := (decodeReady_iff bs).1 h
  match bs, h8, hn with
  | start :: body, h8, hn =>
    let k := 4 + (body.getD 3 0).toNat
    have hk : k + 2 < body.length := by rw [List.getD_cons_succ, List.length_cons] at hn; omega
    refine ⟨start, body.take k, body[k + 1] ++ body[k], body[k + 2], body.drop (k + 3), ?_, ?_⟩
    · have hlength : (body.take k).getD 3 0 = body.getD 3 0 := by
        rw [List.getD_eq_getElem?_getD, List.getElem?_take_of_lt (by omega), List.getD_eq_getElem?_getD]
      rw [Sized, hlength, List.length_take_of_le (by omega)]
    · rw [codeword, le16_append]
      refine congrArg (start :: ·) ((List.take_append_drop k body).symm.trans ?_)
      rw [List.drop_eq_getElem_cons (by omega), List.drop_eq_getElem_cons (by omega), List.drop_eq_getElem_cons hk]
      rfl

theorem highByte_or_lowByte (w : Word16) :
    (w.extractLsb' 0 8).setWidth 16 ||| ((w.extractLsb' 8 8).setWidth 16 <<< 8) = w := by
  refine BitVec.eq_of_getLsbD_eq fun i hi => ?_
  by_cases h8 : i < 8
  · simp [h8, hi]
  · have hlow : i - 8 < 8 := by omega
    have hback : 8 + (i - 8) = i := by omega
    simp [h8, hi, hlow, hback]

section Layout
variable {start fin : Byte} {body rest : List Byte} {w : Word16}

theorem codeword_getD {i : Nat} (hi : i < body.length) :
    (codeword start body w fin rest).getD (i + 1) 0 = body.getD i 0 := by
  rw [codeword, List.getD_cons_succ, List.getD_append _ _ _ _ hi]

theorem codeword_lowByte : (codeword start body w fin rest).getD (1 + body.length) 0 = w.extractLsb' 0 8 := by
  simp [codeword, le16, Nat.add_comm 1]

theorem codeword_highByte : (codeword start body w fin rest).getD (2 + body.length) 0 = w.extractLsb' 8 8 := by
  simp [codeword, le16, Nat.add_comm 2]

variable (hb : Sized body)
include hb

theorem codeword_lengthByte : (codeword start body w fin rest).getD 4 0 = body.getD 3 0 :=
  codeword_getD hb.four_le

theorem decodeReady_codeword : decodeReady (codeword start body w fin rest) = true := by
  rw [decodeReady_iff, codeword_lengthByte hb]
  simp only [codeword, le16, List.length_cons, List.length_append, List.length_nil, hb.length_eq]
  omega

theorem computedCrc_codeword : computedCrc (codeword start body w fin rest) = crcOf body := by
  rw [computedCrc_eq (decodeReady_codeword hb), codeword_lengthByte hb, ← hb]
  simp [codeword]

theorem receivedCrc_codeword : receivedCrc (codeword start body w fin rest) = w := by
  have hlo : 5 + (body.getD 3 0).toNat = 1 + body.length := by rw [hb.length_eq]; omega
  have hhi : 6 + (body.getD 3 0).toNat = 2 + body.length := by rw [hb.length_eq]; omega
  rw [receivedCrc, codeword_lengthByte hb, hlo, hhi, codeword_lowByte, codeword_highByte, highByte_or_lowByte]

theorem payloadOf_codeword : payloadOf (codeword start body w fin rest) = body.drop 4 := by
  have hn : (body.drop 4).length = (body.getD 3 0).toNat := by rw [List.length_drop, hb, Nat.add_sub_cancel_left]
  rw [payloadOf, codeword_lengthByte hb, ← hn, codeword, List.drop_succ_cons, List.drop_append_of_le_length hb.four_le,
    List.take_left]

theorem packetDecode_codeword : packetDecode (codeword start body w fin rest) =
    if crcOf body = w then .valid ⟨body.getD 0 0, body.getD 1 0, body.getD 2 0, body.drop 4, w⟩
    else .checksumMismatch (body.getD 1 0) := by
  have h4 := hb.four_le
  rw [packetDecode, computedCrc_codeword hb, receivedCrc_codeword hb, payloadOf_codeword hb,
    codeword_getD (by omega), codeword_getD (by omega), codeword_getD (by omega)]

/-- DECODE's outcome names neither marker byte nor what follows the frame. -/
theorem exec_decode_codeword (s : State) : exec (.decode (codeword start body w fin rest)) s =
    .next { s with
      crc := crcOf body
      ret := decodedRet (if crcOf body = w then .valid ⟨body.getD 0 0, body.getD 1 0, body.getD 2 0, body.drop 4, w⟩
        else .checksumMismatch (body.getD 1 0)) } := by
  rw [exec_decode_of_ready (decodeReady_codeword hb), computedCrc_codeword hb, packetDecode_codeword hb]

end Layout

section Frame
variable (c : Byte) {f : FrameFields} (hp : f.payload.length ≤ 255)
include hp

theorem decodeReady_frameBytes : decodeReady (frameBytes c f) = true := by
  rw [frameBytes_eq_codeword]
  exact decodeReady_codeword (sized_checkedBody _ _ _ hp)

theorem computedCrc_frameBytes : computedCrc (frameBytes c f) = frameCrc c f := by
  rw [frameBytes_eq_codeword]
  exact computedCrc_codeword (sized_checkedBody _ _ _ hp)

theorem packetDecode_frameBytes : packetDecode (frameBytes c f) =
    if frameCrc c f = f.crc then .valid ⟨f.dst, f.src, c, f.payload, f.crc⟩ else .checksumMismatch f.src := by
  rw [frameBytes_eq_codeword]
  exact packetDecode_codeword (sized_checkedBody _ _ _ hp)

theorem exec_decode_frameBytes (hc : f.crc = frameCrc c f) (s : State) : exec (.decode (frameBytes c f)) s =
    .next { s with crc := frameCrc c f, ret := .packet ⟨f.dst, f.src, c, f.payload, f.crc⟩ } := by
  rw [exec_decode_of_ready (decodeReady_frameBytes c hp), computedCrc_frameBytes c hp, packetDecode_frameBytes c hp,
    if_pos hc.symm, decodedRet]

end Frame

/-- Settles O11: the frame of ENCODE carries the checksum over its own fields. -/
theorem decodeOfEncodeRoundTrip : Obligations.DecodeOfEncodeRoundTrip := fun s u dst src cmd _ hp =>
  ⟨_, _, _, exec_encode_of_le dst src cmd hp s, rfl, exec_decode_frameBytes cmd (hp.trans (by decide)) rfl u, rfl⟩

/-- Settles O12: the changed buffer has the layout with the same covered bytes and the same checksum. -/
theorem decodeIgnoresMarkersAndExcess : Obligations.DecodeIgnoresMarkersAndExcess := by
  intro s bs extra x y h
  obtain ⟨start, body, w, fin, rest, hb, rfl⟩ := exists_eq_codeword h
  have hend : 7 + (body.getD 3 0).toNat = body.length + 3 := by rw [hb.length_eq]; omega
  have hset : ((codeword start body w fin rest).set 0 x).set (body.length + 3) y ++ extra =
      codeword x body w y (rest ++ extra) := by
    simp [codeword, le16, List.set_append_right]
  rw [codeword_lengthByte hb, hend, hset, exec_decode_codeword hb, exec_decode_codeword hb]

/-! One changed byte (R159). -/

theorem crcStep_left_injective (b : Byte) : Function.Injective (crcStep · b) :=
  fun c d h => crcByteLosesNothing.1 b c d h

theorem foldl_crcStep_injective (bs : List Byte) : Function.Injective (bs.foldl crcStep ·) := by
  induction bs with
  | nil => exact fun _ _ h => h
  | cons b bs ih => exact ih.comp (crcStep_left_injective b)

/-- One other byte sets the register apart, and the bytes after it keep it apart. -/
theorem crcOf_set_ne {bs : List Byte} {j : Nat} {x : Byte} (hj : j < bs.length) (hx : x ≠ bs.getD j 0) :
    crcOf (bs.set j x) ≠ crcOf bs := by
  intro h
  have hbs : bs = bs.take j ++ bs[j] :: bs.drop (j + 1) := by
    rw [← List.drop_eq_getElem_cons hj, List.take_append_drop]
  rw [List.set_eq_take_append_cons_drop, if_pos hj, congrArg crcOf hbs, crcOf_append, crcOf_append] at h
  rw [List.getD_eq_getElem _ _ hj] at hx
  exact hx (crcByteLosesNothing.2 _ _ _ (foldl_crcStep_injective _ h))

theorem Sized.set {body : List Byte} {j : Nat} (hb : Sized body) (hj : j ≠ 3) (x : Byte) : Sized (body.set j x) := by
  rw [Sized, List.length_set, List.getD_eq_getElem?_getD, List.getElem?_set_ne hj, ← List.getD_eq_getElem?_getD]
  exact hb

section Change
variable {start fin : Byte} {body rest : List Byte} {w : Word16} {x : Byte}

theorem codeword_set_body {j : Nat} (hj : j < body.length) :
    (codeword start body w fin rest).set (1 + j) x = codeword start (body.set j x) w fin rest := by
  rw [codeword, Nat.add_comm, List.set_cons_succ, List.set_append_left _ _ hj, codeword]

theorem codeword_set_lowByte : (codeword start body w fin rest).set (1 + body.length) x =
    codeword start body (w.extractLsb' 8 8 ++ x) fin rest := by
  rw [codeword, codeword, le16_append, Nat.add_comm, List.set_cons_succ, List.set_append_right _ _ (le_refl _)]
  simp [le16]

theorem codeword_set_highByte : (codeword start body w fin rest).set (2 + body.length) x =
    codeword start body (x ++ w.extractLsb' 0 8) fin rest := by
  rw [codeword, codeword, le16_append, Nat.add_comm, List.set_cons_succ, List.set_append_right _ _ (by omega)]
  simp [le16]

/-- A changed byte that is not the length byte leaves the layout with another checksum to compare, or another one
received. -/
theorem exists_codeword_set (hb : Sized body) {k : Nat} (h1 : 1 ≤ k) (hk : k ≤ 2 + body.length) (h4 : k ≠ 4)
    (hx : x ≠ (codeword start body (crcOf body) fin rest).getD k 0) :
    ∃ body' w', Sized body' ∧ crcOf body' ≠ w' ∧
      (codeword start body (crcOf body) fin rest).set k x = codeword start body' w' fin rest := by
  obtain ⟨j, hj, rfl⟩ | rfl | rfl :
      (∃ j, j < body.length ∧ k = 1 + j) ∨ k = 1 + body.length ∨ k = 2 + body.length := by
    by_cases hj : k - 1 < body.length
    · exact .inl ⟨k - 1, hj, by omega⟩
    · exact .inr (by omega)
  · rw [Nat.add_comm, codeword_getD hj] at hx
    exact ⟨_, _, hb.set (by omega) x, crcOf_set_ne hj hx, codeword_set_body hj⟩
  · rw [codeword_lowByte] at hx
    refine ⟨_, _, hb, fun h => hx ?_, codeword_set_lowByte⟩
    rw [h, BitVec.extractLsb'_append_eq_right]
  · rw [codeword_highByte] at hx
    refine ⟨_, _, hb, fun h => hx ?_, codeword_set_highByte⟩
    rw [h, BitVec.extractLsb'_append_eq_left]

end Change

/-- Settles O13: DECODE compares the checksums of the changed layout, which differ. -/
theorem singleByteErrorIsDetected : Obligations.SingleByteErrorIsDetected := by
  intro s dst src cmd p k x hp body f h1 hk h4 hx
  have hb : Sized body := sized_checkedBody dst src cmd (hp.trans (by decide))
  have hf : f = codeword 0xAA body (crcOf body) 0x55 [] := by simp [f, codeword, le16]
  rw [hf] at hx ⊢
  obtain ⟨body', w', hb', hne, hset⟩ := exists_codeword_set hb h1 (by simp [body]; omega) h4 hx
  refine ⟨_, exec_decode_of_mismatch ?_ ?_ s, rfl⟩
  · rw [hset]
    exact decodeReady_codeword hb'
  · rw [hset, computedCrc_codeword hb', receivedCrc_codeword hb']
    exact hne

end Sys2Proof.Machine
end

section
/-! PROOF. A frame received whole (42 R171 to R183, 43 R201; O50): from Idle each byte of a frame is appended to those
before it until the last one completes it, and then the end byte decides. -/

namespace Sys2Proof.Machine

open Sys2Proof

/-- The seventeen FRAME rows run one and the same: the arrival of their bytes. -/
theorem exec_eq_deliver {i : Instr} {bs : List Byte} (he : encode i = some bs) (s : State) :
    exec i s = deliver bs s.clock s := by
  cases i <;> cases he <;> rfl

theorem andThen_next_right (r : Res) : andThen r .next = r := by
  cases r <;> rfl

/-! Bytes stored one after another. -/

theorem storeFrom_append (m : Memory) (i : Nat) (bs cs : List Byte) :
    storeFrom m i (bs ++ cs) = storeFrom (storeFrom m i bs) (i + bs.length) cs := by
  induction bs generalizing m i with
  | nil => rfl
  | cons b bs ih => rw [List.cons_append, storeFrom, storeFrom, ih, List.length_cons, Nat.add_assoc, Nat.add_comm 1]

theorem storeFrom_wf {m : Memory} {i : Nat} {bs : List Byte} (hw : Memory.wf m = true) (hi : i + bs.length ≤ 256) :
    Memory.wf (storeFrom m i bs) = true := by
  induction bs generalizing m i with
  | nil => exact hw
  | cons b bs ih =>
    rw [List.length_cons] at hi
    exact ih (Memory.wf_write (by omega) hw) (by omega)

theorem read_storeFrom_below {m : Memory} {i j : Nat} (bs : List Byte) (hj : j < i) :
    Memory.read (storeFrom m i bs) j = Memory.read m j := by
  induction bs generalizing m i with
  | nil => rfl
  | cons b bs ih => rw [storeFrom, ih (by omega), Memory.read_write_ne _ _ _ _ (by omega)]

theorem read_storeFrom {m : Memory} {i j : Nat} {bs : List Byte} (hw : Memory.wf m = true) (hi : i + bs.length ≤ 256)
    (hj : j < bs.length) : Memory.read (storeFrom m i bs) (i + j) = bs.getD j 0 := by
  induction bs generalizing m i j with
  | nil => cases hj
  | cons b bs ih =>
    rw [List.length_cons] at hi hj
    cases j with
    | zero =>
      show Memory.read (storeFrom (Memory.write m i b) (i + 1) bs) i = b
      rw [read_storeFrom_below bs (by omega), Memory.read_write _ _ _ _ hw, if_pos rfl]
    | succ j =>
      rw [storeFrom, Nat.add_comm j 1, ← Nat.add_assoc, ih (Memory.wf_write (by omega) hw) (by omega) (by omega),
        Nat.add_comm 1, List.getD_cons_succ]

/-! The assembler in the middle of a frame. -/

/-- The state once the assembler, in Idle in `s`, has taken in the bytes `bs` at reading `now`. -/
def accumulated (now : Word32) (bs : List Byte) (s : State) : State :=
  { s with
    buf := storeFrom s.buf 0 bs, idx := bs.length, lastTs := now
    expLen := if 5 ≤ bs.length then bs.getD 4 0 else s.expLen }

section Accumulate
variable {now : Word32} {bs : List Byte} {s : State}

theorem idleExpired_iff : idleExpired now s = true ↔ 0 < s.idx ∧ 500 < (now - s.lastTs).toNat := by
  rw [idleExpired, Bool.and_eq_true, decide_eq_true_eq, decide_eq_true_eq, idleTimeoutMs]

theorem arrive_of_fresh (hf : FreshAt now s) : arrive now s = { s with idx := 0, lastTs := now } := by
  by_cases hx : idleExpired now s = true
  · rw [arrive, if_pos hx]
    rfl
  · have h0 : s.idx = 0 :=
      hf.elim id fun hgap => Nat.eq_zero_of_not_pos fun hpos => hx (idleExpired_iff.2 ⟨hpos, hgap⟩)
    rw [arrive, if_neg hx, ← h0]

theorem arrive_accumulated : arrive now (accumulated now bs s) = accumulated now bs s := by
  have hx : idleExpired now (accumulated now bs s) = false := by simp [idleExpired, accumulated]
  rw [arrive, hx]
  rfl

theorem structurallyComplete_accumulated : structurallyComplete (accumulated now bs s) = decodeReady bs := by
  by_cases h8 : 8 ≤ bs.length
  · have h5 : 5 ≤ bs.length := by omega
    simp only [structurallyComplete, decodeReady, accumulated, if_pos h5]
  · simp [structurallyComplete, decodeReady, accumulated, h8]

theorem assembled_start (hf : FreshAt now s) :
    assembled startMarker now s = (accumulated now [startMarker] s, none) := by
  simp only [assembled, arrive_of_fresh hf]
  rfl

/-- The fifth byte is the length byte of the frame (R178). -/
theorem appended_accumulated (hw : Memory.wf s.buf = true) (hl : bs.length < 256) (b : Byte) :
    appended b (accumulated now bs s) = accumulated now (bs ++ [b]) s := by
  have hbuf : storeFrom s.buf 0 (bs ++ [b]) = Memory.write (storeFrom s.buf 0 bs) bs.length b := by
    rw [storeFrom_append, Nat.zero_add]
    rfl
  have hlatch : (if bs.length = 4 then Memory.read (storeFrom s.buf 0 (bs ++ [b])) 4
        else if 5 ≤ bs.length then bs.getD 4 0 else s.expLen) =
      if 5 ≤ (bs ++ [b]).length then (bs ++ [b]).getD 4 0 else s.expLen := by
    rw [List.length_append, List.length_singleton]
    obtain h | h | h := Nat.lt_trichotomy bs.length 4
    · rw [if_neg (by omega), if_neg (by omega), if_neg (by omega)]
    · have hread := read_storeFrom (j := 4) hw (bs := bs ++ [b]) (i := 0) (by simp; omega) (by simp; omega)
      rw [if_pos h, if_pos (by omega), ← hread]
    · rw [if_neg (by omega), if_pos (by omega), if_pos (by omega), List.getD_append _ _ _ _ h]
  rw [appended_eq]
  simp only [accumulated, ← hbuf, hlatch, List.length_append, List.length_singleton]

theorem assembled_accumulated (hw : Memory.wf s.buf = true) (h0 : bs ≠ []) (hl : bs.length < 256) (b : Byte) :
    assembled b now (accumulated now bs s) = finished (accumulated now (bs ++ [b]) s) := by
  have hpos : 0 < bs.length := List.length_pos_iff.2 h0
  have hidx : (accumulated now bs s).idx = bs.length := rfl
  simp only [assembled, arrive_accumulated, hidx, if_neg hpos.ne', if_neg (Nat.not_le.2 hl), appended_accumulated hw hl]

theorem finished_of_incomplete {s : State} (hc : structurallyComplete s = false) : finished s = (s, none) := by
  rw [finished, hc]
  rfl

/-- The stored bytes read back are the bytes that arrived. -/
theorem read_accumulated (hw : Memory.wf s.buf = true) (h256 : bs.length ≤ 256) {j : Nat} (hj : j < bs.length) :
    Memory.read (accumulated now bs s).buf j = bs.getD j 0 := by
  have hread := read_storeFrom (i := 0) hw (by omega) hj
  rwa [Nat.zero_add] at hread

theorem slice_accumulated (hw : Memory.wf s.buf = true) (h256 : bs.length ≤ 256) :
    (List.range (accumulated now bs s).idx).map (Memory.read (accumulated now bs s).buf) = bs := by
  refine List.ext_getElem (by simp [accumulated]) fun j _ hj => ?_
  rw [List.getElem_map, List.getElem_range, read_accumulated hw h256 hj, List.getD_eq_getElem _ _ hj]

/-- The end byte of a complete frame decides between the hand-off and the discard (R180, R181). -/
theorem finished_accumulated (hw : Memory.wf s.buf = true) {fin : Byte} (h256 : (bs ++ [fin]).length ≤ 256)
    (hc : decodeReady (bs ++ [fin]) = true) :
    finished (accumulated now (bs ++ [fin]) s) =
      if fin = endMarker then handOff (bs ++ [fin]) (accumulated now (bs ++ [fin]) s)
      else (errorChange .badEnd (accumulated now (bs ++ [fin]) s), none) := by
  have hlast : Memory.read (accumulated now (bs ++ [fin]) s).buf ((accumulated now (bs ++ [fin]) s).idx - 1) = fin := by
    have hidx : (accumulated now (bs ++ [fin]) s).idx - 1 = bs.length := by simp [accumulated]
    rw [hidx, read_accumulated hw h256 (by simp), List.getD_append_right _ _ _ _ (le_refl _), Nat.sub_self]
    rfl
  rw [finished, if_pos (structurallyComplete_accumulated.trans hc), hlast, slice_accumulated hw h256]

end Accumulate

/-! The arrival of a frame's bytes while the node listens. -/

theorem deliver_cons {b : Byte} {rest : List Byte} {now : Word32} {s : State} (hg : gateClosed s = false)
    (hl : s.lost = 0) : deliver (b :: rest) now s = andThen (receiveByte b now s) (deliver rest now) := by
  have ho : overtaken s = false := by simp [overtaken, hl]
  rw [deliver, if_neg (by simp [ho]), lineArrival, if_neg (by simp [hg])]

theorem receiveByte_of_silent {b : Byte} {now : Word32} {s t : State} (h : assembled b now s = (t, none)) :
    receiveByte b now s = .next t := by
  rw [receiveByte_eq, h]

/-- Bytes after a whole frame leave it whole. -/
theorem decodeReady_of_append {bs cs : List Byte} (h : decodeReady bs = true) : decodeReady (bs ++ cs) = true := by
  rw [decodeReady_iff] at *
  rw [List.length_append, List.getD_append _ _ _ _ (by omega)]
  omega

section Arrival
variable {now : Word32} {s : State} (hg : gateClosed s = false) (hl : s.lost = 0) (hw : Memory.wf s.buf = true)
include hg hl hw

/-- Bytes that do not complete a frame are appended to those before them (R177). -/
theorem deliver_accumulated {pre bs : List Byte} (rest : List Byte) (h0 : pre ≠ [])
    (h256 : (pre ++ bs).length ≤ 256) (hc : decodeReady (pre ++ bs) = false) :
    deliver (bs ++ rest) now (accumulated now pre s) = deliver rest now (accumulated now (pre ++ bs) s) := by
  induction bs generalizing pre with
  | nil => rw [List.nil_append, List.append_nil]
  | cons b bs ih =>
    have hsplit : pre ++ b :: bs = (pre ++ [b]) ++ bs := by simp
    rw [hsplit] at h256 hc ⊢
    have hpart : decodeReady (pre ++ [b]) = false :=
      Bool.eq_false_iff.2 fun h => Bool.eq_false_iff.1 hc (decodeReady_of_append h)
    have hbyte : assembled b now (accumulated now pre s) = (accumulated now (pre ++ [b]) s, none) := by
      rw [assembled_accumulated hw h0 (by simp at h256; omega)]
      exact finished_of_incomplete (structurallyComplete_accumulated.trans hpart)
    rw [List.cons_append, deliver_cons (s := accumulated now pre s) hg hl, receiveByte_of_silent hbyte, andThen_next]
    exact ih (by simp) h256 hc

/-- From Idle the start marker and bytes that do not complete a frame are accumulated (R175, R177). -/
theorem deliver_start {bs : List Byte} (rest : List Byte) (hf : FreshAt now s)
    (h256 : (startMarker :: bs).length ≤ 256) (hc : decodeReady (startMarker :: bs) = false) :
    deliver (startMarker :: bs ++ rest) now s = deliver rest now (accumulated now (startMarker :: bs) s) := by
  rw [List.cons_append, deliver_cons hg hl, receiveByte_of_silent (assembled_start hf), andThen_next]
  exact deliver_accumulated hg hl hw rest (pre := [startMarker]) (by simp) h256 hc

/-- The last byte of a frame completes it, and its step 7 decides (R179 to R181). -/
theorem deliver_whole {bs : List Byte} {fin : Byte} (hf : FreshAt now s)
    (h256 : (startMarker :: bs).length < 256) (hc : decodeReady (startMarker :: bs) = false)
    (hr : decodeReady (startMarker :: bs ++ [fin]) = true) :
    deliver (startMarker :: bs ++ [fin]) now s =
      if fin = endMarker then
        consume (emissionOf (packetDecode (startMarker :: bs ++ [fin])))
          (handOff (startMarker :: bs ++ [fin]) (accumulated now (startMarker :: bs ++ [fin]) s)).1
      else .next (errorChange .badEnd (accumulated now (startMarker :: bs ++ [fin]) s)) := by
  rw [deliver_start hg hl hw [fin] hf h256.le hc, deliver_cons (s := accumulated now (startMarker :: bs) s) hg hl,
    receiveByte_eq, assembled_accumulated hw (by simp) h256, finished_accumulated hw (by simpa using h256) hr]
  refine (andThen_next_right _).trans ?_
  by_cases he : fin = endMarker
  · simp only [if_pos he]
    rfl
  · simp only [if_neg he]

end Arrival

/-! The frame of an instruction. -/

theorem frameBytes_eq_concat (c : Byte) (f : FrameFields) :
    frameBytes c f = startMarker :: (checkedBody f.dst f.src c f.payload ++ le16 f.crc) ++ [f.fin] := by
  simp [frameBytes, checkedBody, le16]

/-- Before its end byte a frame is one byte too short (R179). -/
theorem decodeReady_without_end (c : Byte) {f : FrameFields} (hp : f.payload.length ≤ 255) :
    decodeReady (startMarker :: (checkedBody f.dst f.src c f.payload ++ le16 f.crc)) = false := by
  refine Bool.eq_false_iff.2 fun h => ?_
  have hn := ((decodeReady_iff _).1 h).2
  simp [checkedBody, le16] at hn
  omega

/-- The state after a frame with the bytes of `f` has been stored: its fifth byte is the payload length (R178). -/
theorem accumulated_frameBytes (now : Word32) (c : Byte) (f : FrameFields) (s : State) :
    accumulated now (frameBytes c f) s = { s with
      buf := storeFrom s.buf 0 (frameBytes c f), idx := (frameBytes c f).length, lastTs := now
      expLen := BitVec.ofNat 8 f.payload.length } := by
  simp [accumulated, frameBytes]

section Whole
variable {i : Instr} {c : Byte} {f : FrameFields} {s : State} (he : encode i = some (frameBytes c f))
  (hg : gateClosed s = false) (hl : s.lost = 0) (hw : Memory.wf s.buf = true) (hf : FreshAt s.clock s)
  (hp : f.payload.length ≤ 248)
include he hg hl hw hf hp

theorem exec_frame : exec i s =
    if f.fin = endMarker then
      consume (emissionOf (packetDecode (frameBytes c f)))
        (handOff (frameBytes c f) (accumulated s.clock (frameBytes c f) s)).1
    else .next (errorChange .badEnd (accumulated s.clock (frameBytes c f) s)) := by
  have hp' : f.payload.length ≤ 255 := by omega
  have hr := decodeReady_frameBytes c hp'
  rw [exec_eq_deliver he]
  rw [frameBytes_eq_concat] at hr ⊢
  exact deliver_whole hg hl hw hf (by simp [checkedBody, le16]; omega) (decodeReady_without_end c hp') hr

/-- A frame with a good end marker is handed off, and the output of DECODE is consumed (R180, R182, R183). -/
theorem exec_frame_of_end (hfin : f.fin = endMarker) {e : Emission}
    (hd : emissionOf (packetDecode (frameBytes c f)) = e) :
    exec i s = consume e (afterHandOff (frameBytes c f) f.payload.length (frameCrc c f) e s) := by
  rw [exec_frame he hg hl hw hf hp, if_pos hfin, handOff, accumulated_frameBytes,
    computedCrc_frameBytes c (hp.trans (by decide)), hd]
  rfl

/-- A frame with another end byte is discarded and counted (R181). -/
theorem exec_frame_of_badEnd (hfin : f.fin ≠ endMarker) : exec i s = .next { s with
    buf := storeFrom s.buf 0 (frameBytes c f), idx := 0, expLen := BitVec.ofNat 8 f.payload.length
    lastTs := s.clock, errCount := s.errCount + 1 } := by
  rw [exec_frame he hg hl hw hf hp, if_neg hfin, accumulated_frameBytes]
  rfl

end Whole

/-- The answer to a frame with a wrong checksum: one SEND to its source (44 R237). -/
theorem consume_frameCrcError (src : Byte) {s : State} (hs : s.txActive = false) :
    consume (.frameCrcError src) s = .next (afterSend src s.myAddr 0xFF [0x01, s.myAddr] s) :=
  transmit_of_inactive _ _ _ _ _ hs

/-- Settles O50: the whole frame is handed off or discarded by its end byte, and DECODE reports the wrong checksum. -/
theorem badFrameIsAnsweredOrCounted : Obligations.BadFrameIsAnsweredOrCounted := by
  intro i c f s he hd hr ha hw hf hl hp
  have hg : gateClosed s = false := by simp [gateClosed, hd, hr]
  refine ⟨fun hfin hcrc => ?_, exec_frame_of_badEnd he hg hl hw hf hp⟩
  have hout : emissionOf (packetDecode (frameBytes c f)) = .frameCrcError f.src := by
    rw [packetDecode_frameBytes c (hp.trans (by decide)), if_neg hcrc.symm, emissionOf]
  exact ⟨_, (exec_frame_of_end he hg hl hw hf hp hfin hout).trans (consume_frameCrcError f.src ha), rfl⟩

end Sys2Proof.Machine
end

section
/-! PROOF. RXBYTE one byte at a time (42 R171 to R187; O18 to O26). The seven steps have one equation for each of the
three places a byte can meet the assembler in: Idle, full, or in the middle of a frame. -/

namespace Sys2Proof.Machine

open Sys2Proof

/-- The state once a byte has been stored in the middle of a frame (R173, R177, R178). -/
def stored (b : Byte) (now : Word32) (s : State) : State :=
  { s with
    buf := Memory.write s.buf s.idx b, idx := s.idx + 1, expLen := if s.idx = 4 then b else s.expLen, lastTs := now }

section OneByte
variable {b : Byte} {now : Word32} {s t : State}

theorem exec_rxByte_of_silent (h : assembled b now s = (t, none)) : exec (.rxByte b now) s = .next t :=
  receiveByte_of_silent h

theorem exec_rxByte_of_output {e : Emission} (h : assembled b now s = (t, some e)) :
    exec (.rxByte b now) s = consume e t := by
  rw [exec, execRxByte, receiveByte_eq, h]

/-! The three places. -/

theorem assembled_of_fresh (hf : FreshAt now s) (b : Byte) : assembled b now s =
    (if b = startMarker then { s with buf := Memory.write s.buf 0 b, idx := 1, lastTs := now }
      else { s with idx := 0, lastTs := now }, none) := by
  simp only [assembled, arrive_of_fresh hf]
  rfl

theorem arrive_of_within (hgap : (now - s.lastTs).toNat ≤ 500) : arrive now s = { s with lastTs := now } := by
  rw [arrive, if_neg fun hx => absurd (idleExpired_iff.1 hx).2 (Nat.not_lt.2 hgap)]

theorem assembled_of_full (hi : s.idx = 256) (hgap : (now - s.lastTs).toNat ≤ 500) (b : Byte) :
    assembled b now s = ({ s with idx := 0, errCount := s.errCount + 1, lastTs := now }, none) := by
  simp only [assembled, arrive_of_within hgap, hi]
  rfl

theorem assembled_of_within (h0 : 0 < s.idx) (hi : s.idx < 256) (hgap : (now - s.lastTs).toNat ≤ 500) (b : Byte) :
    assembled b now s = finished (appended b { s with lastTs := now }) := by
  simp only [assembled, arrive_of_within hgap, if_neg h0.ne', if_neg (Nat.not_le.2 hi)]

/-! The byte in the middle of a frame. -/

theorem appended_eq_stored (hw : Memory.wf s.buf = true) : appended b { s with lastTs := now } = stored b now s := by
  rw [appended_eq, stored]
  congr 1
  refine ite_congr rfl (fun h4 => ?_) fun _ => rfl
  rw [h4, Memory.read_write _ _ _ _ hw, if_pos rfl]

theorem structurallyComplete_appended_iff : structurallyComplete (appended b s) = true ↔
    8 ≤ s.idx + 1 ∧ 5 + s.expLen.toNat + 3 ≤ s.idx + 1 := by
  rw [structurallyComplete, Bool.and_eq_true, decide_eq_true_eq, decide_eq_true_eq, appended_idx, appended_expLen]
  refine and_congr_right fun h8 => ?_
  rw [if_neg (by omega)]

/-- A byte that completes a frame is not the fifth. -/
theorem stored_of_complete (h8 : 8 ≤ s.idx + 1) : stored b now s =
    { s with buf := Memory.write s.buf s.idx b, idx := s.idx + 1, lastTs := now } := by
  rw [stored, if_neg (by omega)]

theorem finished_stored (hw : Memory.wf s.buf = true) (hc : 8 ≤ s.idx + 1 ∧ 5 + s.expLen.toNat + 3 ≤ s.idx + 1) :
    finished (stored b now s) =
      if b = endMarker then
        handOff ((List.range (s.idx + 1)).map (Memory.read (Memory.write s.buf s.idx b))) (stored b now s)
      else (errorChange .badEnd (stored b now s), none) := by
  have hcomplete : structurallyComplete (stored b now s) = true := by
    rw [← appended_eq_stored hw]
    exact structurallyComplete_appended_iff.2 hc
  have hlast : Memory.read (stored b now s).buf ((stored b now s).idx - 1) = b := by
    rw [stored, Nat.add_sub_cancel, Memory.read_write _ _ _ _ hw, if_pos rfl]
  rw [finished, if_pos hcomplete, hlast, stored]

/-- A byte that completes a frame: its end marker decides (R179 to R181). -/
theorem assembled_of_complete (hw : Memory.wf s.buf = true) (h0 : 0 < s.idx) (hi : s.idx < 256)
    (hgap : (now - s.lastTs).toNat ≤ 500) (hc : 8 ≤ s.idx + 1 ∧ 5 + s.expLen.toNat + 3 ≤ s.idx + 1) :
    assembled b now s =
      if b = endMarker then
        handOff ((List.range (s.idx + 1)).map (Memory.read (Memory.write s.buf s.idx b))) (stored b now s)
      else (errorChange .badEnd (stored b now s), none) := by
  rw [assembled_of_within h0 hi hgap, appended_eq_stored hw, finished_stored hw hc]

/-- A byte that does not complete a frame is stored (R177, R178). -/
theorem assembled_of_incomplete (h0 : 0 < s.idx) (hi : s.idx < 256) (hgap : (now - s.lastTs).toNat ≤ 500)
    (hc : ¬ (8 ≤ s.idx + 1 ∧ 5 + s.expLen.toNat + 3 ≤ s.idx + 1)) :
    assembled b now s = (appended b { s with lastTs := now }, none) := by
  rw [assembled_of_within h0 hi hgap]
  exact finished_of_incomplete (Bool.eq_false_iff.2 fun h =>
    hc (structurallyComplete_appended_iff (s := { s with lastTs := now }).1 h))

end OneByte

/-! Bytes without an output (O18 to O23). -/

/-- Settles O18: the timeout leaves nothing of the partial frame but Idle. -/
theorem idleTimeoutActsBeforeTheByte : Obligations.IdleTimeoutActsBeforeTheByte := by
  refine ⟨fun s b now _ hgap => ?_, fun s now _ hgap => exec_rxByte_of_silent (assembled_of_fresh (.inr hgap) 0xAA)⟩
  have same : assembled b now { s with idx := 0 } = assembled b now s := by
    rw [assembled_of_fresh (.inr hgap), assembled_of_fresh (.inl rfl)]
  rw [exec_rxByte_of_silent (assembled_of_fresh (.inr hgap) b),
    exec_rxByte_of_silent (same.trans (assembled_of_fresh (.inr hgap) b))]

/-- Settles O19: a byte that meets Idle. -/
theorem idleDiscardsOtherBytes : Obligations.IdleDiscardsOtherBytes := by
  intro s b now h0 hb
  rw [exec_rxByte_of_silent (assembled_of_fresh (.inl h0) b), if_neg (show b ≠ startMarker from hb), ← h0]

/-- Settles O20: the start marker meets Idle. -/
theorem startMarkerOpensAFrame : Obligations.StartMarkerOpensAFrame := by
  refine fun s now h0 => ⟨exec_rxByte_of_silent (assembled_of_fresh (.inl h0) 0xAA), fun hw => ?_, fun a ha => ?_⟩
  · rw [Memory.read_write _ _ _ _ hw, if_pos rfl]
  · exact Memory.read_write_ne _ _ _ _ ha

/-- Settles O21: before the eighth byte nothing is complete, and from the sixth on the length is latched. -/
theorem everyFurtherByteIsAppended : Obligations.EveryFurtherByteIsAppended := by
  intro s b now hw h1 h255 hgap len hc
  have hc' : ¬ (8 ≤ s.idx + 1 ∧ 5 + s.expLen.toNat + 3 ≤ s.idx + 1) := fun ⟨h8, hn⟩ =>
    hc ⟨h8, by rwa [show len = s.expLen from if_neg (by omega)]⟩
  refine ⟨?_, ?_, fun a ha => Memory.read_write_ne _ _ _ _ ha⟩
  · rw [exec_rxByte_of_silent (assembled_of_incomplete h1 (by omega) hgap hc'), appended_eq_stored hw]
    rfl
  · rw [Memory.read_write _ _ _ _ hw, if_pos rfl]

/-- Settles O22: a byte that meets the full buffer. -/
theorem fullBufferOverflows : Obligations.FullBufferOverflows :=
  fun _ b _ h256 hgap => exec_rxByte_of_silent (assembled_of_full h256 hgap b)

/-- Settles O23: step 7 on another end byte. -/
theorem badEndMarkerDiscardsTheFrame : Obligations.BadEndMarkerDiscardsTheFrame := by
  intro s b now h1 h255 hgap h8 hn hb hw
  have hbyte := assembled_of_complete (b := b) hw h1 (by omega) hgap ⟨h8, hn⟩
  rw [if_neg (show b ≠ endMarker from hb), stored_of_complete h8] at hbyte
  exact exec_rxByte_of_silent hbyte

/-! RXBYTE with its consumer, which faults nowhere and leaves the assembler alone (O24 to O26). -/

theorem transmit_ne_fault (dst src cmd : Byte) (payload : List Byte) (s : State) (x : Fault) :
    transmit dst src cmd payload s ≠ .fault x := by
  cases hs : s.txActive with
  | false => rw [transmit_of_inactive _ _ _ _ _ hs]; nofun
  | true => rw [transmit_of_active _ _ _ _ _ hs]; nofun

theorem runHandler_ne_fault (h : Handler) (p : Packet) (s : State) (x : Fault) : runHandler h p s ≠ .fault x := by
  cases h with
  | ping => exact transmit_ne_fault _ _ _ _ _ x
  | getVersion => exact transmit_ne_fault _ _ _ _ _ x
  | heartbeat => exact transmit_ne_fault _ _ _ _ _ x
  | getStatus => exact transmit_ne_fault _ _ _ _ _ x
  | external id =>
    rw [runHandler, externalReply]
    split
    · nofun
    · exact transmit_ne_fault _ _ _ _ _ x

theorem dispatchPacket_ne_fault (p : Packet) (s : State) (x : Fault) : dispatchPacket p s ≠ .fault x := by
  unfold dispatchPacket
  split
  · simp only
    split
    · exact runHandler_ne_fault _ p _ x
    · exact transmit_ne_fault _ _ _ _ _ x
  · nofun

theorem consume_ne_fault (e : Emission) (s : State) (x : Fault) : consume e s ≠ .fault x := by
  cases e with
  | frameValid p => exact dispatchPacket_ne_fault p s x
  | frameCrcError src => exact transmit_ne_fault _ _ _ _ _ x

theorem receiveByte_ne_fault (b : Byte) (now : Word32) (s : State) (x : Fault) : receiveByte b now s ≠ .fault x := by
  rw [receiveByte_eq]
  split
  · nofun
  · exact consume_ne_fault _ _ x

/-- With nothing in flight RXBYTE always answers (R186). -/
theorem receiveByte_answers (b : Byte) (now : Word32) {s : State} (hs : s.txActive = false) :
    ∃ t, receiveByte b now s = .next t := by
  have ha : (assembled b now s).1.txActive = false := by rw [assembled_from b now s, hs]
  rw [receiveByte_eq]
  split
  · exact ⟨_, rfl⟩
  · exact consume_answers _ _ ha

theorem Assembles.idx_le {b : Byte} {now : Word32} {s : State} {x : State × Option Emission}
    (h : Assembles b now s x) : x.1.idx ≤ 256 := by
  cases h with
  | discarded h0 => exact h0.trans_le (Nat.zero_le _)
  | opened h0 hb => exact (by decide : 1 ≤ 256)
  | overflowed => exact Nat.zero_le _
  | kept h0 hi hc => exact (appended_idx b _).trans_le hi
  | badEnd hi => exact Nat.zero_le _
  | handedOff hi frame => exact Nat.zero_le _

/-- Settles O25: the consumer faults nowhere, and leaves the fill index as the assembler left it. -/
theorem rxByteNeverOverrunsTheBuffer : Obligations.RxByteNeverOverrunsTheBuffer := by
  refine fun s b now => ⟨receiveByte_ne_fault b now s, fun t h => ?_, receiveByte_answers b now⟩
  rw [(receiveByte_from h).sameAssembler.idx]
  exact (assembles b now s).idx_le

/-- Settles O24: DISPATCH or the checksum response is the consumer of the one output, and leaves the assembler alone. -/
theorem goodEndMarkerHandsTheFrameOver : Obligations.GoodEndMarkerHandsTheFrameOver := by
  intro s now h1 h255 hgap h8 hn hw buf frame held
  have hbyte : assembled 0x55 now s =
      ({ held with emitted := s.emitted ++ [emissionOf (packetDecode frame)] },
        some (emissionOf (packetDecode frame))) := by
    rw [assembled_of_complete hw h1 (by omega) hgap ⟨h8, hn⟩, if_pos (show (0x55 : Byte) = endMarker from rfl),
      stored_of_complete h8]
    rfl
  have hx := exec_rxByte_of_output hbyte
  refine ⟨fun p hp => ?_, fun src hs => ?_, fun ha => ?_⟩
  · rw [hx, hp]
    rfl
  · rw [hx, hs]
    rfl
  · obtain ⟨t, ht⟩ := consume_answers (emissionOf (packetDecode frame))
      { held with emitted := s.emitted ++ [emissionOf (packetDecode frame)] } ha
    exact ⟨t, hx.trans ht, (consume_from ht).sameAssembler.idx⟩

/-- Settles O26: 5 + 249 + 3 is more than the buffer holds, so a byte is stored, or meets a full buffer or Idle. -/
theorem lengthOver248NeverCompletes : Obligations.LengthOver248NeverCompletes := by
  intro s t b now h5 h256 hlen h
  by_cases hgap : (now - s.lastTs).toNat ≤ 500
  · obtain hfull | hi := h256.eq_or_lt
    · rw [exec_rxByte_of_silent (assembled_of_full hfull hgap b)] at h
      cases h
      exact ⟨rfl, rfl, rfl, rfl, .inr (.inl rfl)⟩
    · rw [exec_rxByte_of_silent (assembled_of_incomplete (by omega) hi hgap (by omega)), appended_eq] at h
      cases h
      exact ⟨rfl, rfl, rfl, rfl, .inl ⟨if_neg (by omega : s.idx ≠ 4), rfl⟩⟩
  · rw [exec_rxByte_of_silent (assembled_of_fresh (.inr (Nat.not_le.1 hgap)) b)] at h
    split at h
    · cases h
      exact ⟨rfl, rfl, rfl, rfl, .inr (.inr rfl)⟩
    · cases h
      exact ⟨rfl, rfl, rfl, rfl, .inr (.inl rfl)⟩

end Sys2Proof.Machine
end

section
/-! PROOF. Frames at a listening node (42 R171 to R187, 43 R216, 70 R320, R321; O49, O51, O53). -/

namespace Sys2Proof.Machine

open Sys2Proof

/-! A frame that fits. -/

/-- Settles O49: the whole frame is handed off, and DISPATCH leaves the assembler as the hand-off left it. -/
theorem goodFrameIsDispatchedOnce : Obligations.GoodFrameIsDispatchedOnce := by
  intro i c f s he hd hr ha hw hf hl hp hfin hcrc p u
  have hg : gateClosed s = false := by simp [gateClosed, hd, hr]
  have hout : emissionOf (packetDecode (frameBytes c f)) = .frameValid p := by
    rw [packetDecode_frameBytes c (hp.trans (by decide)), if_pos hcrc.symm, emissionOf]
  have hx : exec i s = exec (.dispatch p) u := by
    rw [exec_frame_of_end he hg hl hw hf hp hfin hout, ← hcrc]
    rfl
  obtain ⟨t, ht⟩ := dispatchPacket_answers p u ha
  have hsame := (dispatchPacket_from ht).sameAssembler
  exact ⟨hx, t, hx.trans ht, hsame.idx, hsame.buf, hsame.emitted⟩

/-! A frame that does not fit: the bytes after the overflow are too few for another outcome. -/

/-- `t` is `s` but for a frame that has been begun, continued or dropped without an outcome. -/
def AttemptFrom (s t : State) : Prop :=
  t = { s with buf := t.buf, idx := t.idx, expLen := t.expLen, lastTs := t.lastTs }

theorem AttemptFrom.trans {s t u : State} (h : AttemptFrom s t) (k : AttemptFrom t u) : AttemptFrom s u := by
  rw [AttemptFrom, k, h]

/-- Fewer than eight bytes have no outcome (R179). -/
theorem assembled_attempt (b : Byte) (now : Word32) {s : State} (hi : s.idx < 7) :
    ∃ t, assembled b now s = (t, none) ∧ AttemptFrom s t ∧ t.idx ≤ s.idx + 1 := by
  by_cases hf : FreshAt now s
  · refine ⟨_, assembled_of_fresh hf b, ?_⟩
    split
    · exact ⟨rfl, Nat.le_add_left 1 _⟩
    · exact ⟨rfl, Nat.zero_le _⟩
  · obtain ⟨h0, hgap⟩ := not_or.1 hf
    refine ⟨_, assembled_of_incomplete (Nat.pos_of_ne_zero h0) (by omega) (Nat.not_lt.1 hgap) (by omega), ?_, ?_⟩
    · rw [appended_eq, AttemptFrom]
    · exact (appended_idx b _).le

theorem deliver_attempt {bs : List Byte} {now : Word32} {s : State} (hg : gateClosed s = false) (hl : s.lost = 0)
    (hn : s.idx + bs.length ≤ 7) : ∃ t, deliver bs now s = .next t ∧ AttemptFrom s t := by
  induction bs generalizing s with
  | nil => exact ⟨s, rfl, rfl⟩
  | cons b bs ih =>
    rw [List.length_cons] at hn
    obtain ⟨u, hu, hsu, hi⟩ := assembled_attempt b now (s := s) (by omega)
    obtain ⟨t, ht, hut⟩ := ih (s := u) (by rw [hsu]; exact hg) (by rw [hsu]; exact hl) (by omega)
    refine ⟨t, ?_, hsu.trans hut⟩
    rw [deliver_cons hg hl, receiveByte_of_silent hu, andThen_next, ht]

/-- A frame of more than 256 bytes fills the buffer before its end. -/
theorem frameBytes_eq_overlong (c : Byte) {f : FrameFields} (h249 : 249 ≤ f.payload.length)
    (h255 : f.payload.length ≤ 255) : ∃ bs b rest, frameBytes c f = startMarker :: bs ++ b :: rest ∧
      (startMarker :: bs).length = 256 ∧ decodeReady (startMarker :: bs) = false ∧ rest.length ≤ 6 := by
  have hlen : (checkedBody f.dst f.src c f.payload ++ le16 f.crc).length = 6 + f.payload.length := by
    simp only [checkedBody, le16, List.length_append, List.length_cons, List.length_nil]
    omega
  have hshort := decodeReady_without_end c h255
  rw [frameBytes_eq_concat]
  generalize checkedBody f.dst f.src c f.payload ++ le16 f.crc = body at hlen hshort
  have hcut : startMarker :: body.take 255 ++ body.drop 255 = startMarker :: body := by
    rw [List.cons_append, List.take_append_drop]
  obtain ⟨b, rest, hrest⟩ := List.exists_cons_of_ne_nil (l := body.drop 255 ++ [f.fin]) (by simp)
  refine ⟨body.take 255, b, rest, ?_, by simp; omega, Bool.eq_false_iff.2 fun h => ?_, ?_⟩
  · rw [← hrest, ← List.append_assoc, hcut]
  · have hready := decodeReady_of_append (cs := body.drop 255) h
    rw [hcut, hshort] at hready
    cases hready
  · have hsum := congrArg List.length hrest
    simp only [List.length_append, List.length_drop, List.length_cons, List.length_nil] at hsum
    omega

/-- The state once the bytes `bs` have filled the buffer and one more has arrived (R176). -/
def overflowed (now : Word32) (bs : List Byte) (s : State) : State :=
  { accumulated now bs s with idx := 0, errCount := s.errCount + 1 }

theorem assembled_overflow {bs : List Byte} (b : Byte) (now : Word32) (s : State) (h256 : bs.length = 256) :
    assembled b now (accumulated now bs s) = (overflowed now bs s, none) :=
  assembled_of_full (s := accumulated now bs s) h256 (by simp [accumulated]) b

/-- Settles O51: 256 bytes are stored, the next overflows, and at most six follow. -/
theorem overlongFrameOverflows : Obligations.OverlongFrameOverflows := by
  intro i c f s he hd hr _ hw hf hl h249 h255
  have hg : gateClosed s = false := by simp [gateClosed, hd, hr]
  obtain ⟨bs, b, rest, hframe, h256, hshort, hrest⟩ := frameBytes_eq_overlong c h249 h255
  have hx : exec i s = deliver rest s.clock (overflowed s.clock (startMarker :: bs) s) := by
    rw [exec_eq_deliver he, hframe, deliver_start hg hl hw _ hf h256.le hshort,
      deliver_cons (s := accumulated s.clock (startMarker :: bs) s) hg hl,
      receiveByte_of_silent (assembled_overflow b s.clock s h256), andThen_next]
  have hfew : (overflowed s.clock (startMarker :: bs) s).idx + rest.length ≤ 7 := by
    rw [show (overflowed s.clock (startMarker :: bs) s).idx = 0 from rfl]
    omega
  obtain ⟨t, ht, hst⟩ := deliver_attempt (now := s.clock) (s := overflowed s.clock (startMarker :: bs) s) hg hl hfew
  refine ⟨t, hx.trans ht, ?_⟩
  rw [hst]
  exact ⟨rfl, rfl, rfl, rfl, rfl⟩

/-! Any frame, whatever the assembler holds. -/

theorem gateClosed_of_listening {s : State} (h : Listening s) : gateClosed s = false := by
  obtain ⟨-, hd, hr, -⟩ := h
  simp [gateClosed, hd, hr]

theorem AssembledFrom.listening {s t : State} (h : AssembledFrom s t) (hs : Listening s) : Listening t := by
  rw [h]
  exact hs

/-- A response ends in the listening state again (43 R211). -/
theorem RespondedFrom.listening {s t : State} (h : RespondedFrom s t) (hs : Listening s) : Listening t := by
  obtain ⟨-, ⟨hd, hr, hp, ha, -⟩ | ⟨-, hd, hr, hp, ha⟩⟩ := h
  · rwa [Listening, hp, hd, hr, ha]
  · exact ⟨hp, hd, hr, ha⟩

theorem lineArrival_listening (b : Byte) (now : Word32) {s : State} (hs : Listening s) :
    ∃ t, lineArrival b now s = .next t ∧ Listening t := by
  have ⟨_, _, _, ha⟩ := hs
  obtain ⟨t, ht⟩ := receiveByte_answers b now ha
  refine ⟨t, ?_, (receiveByte_from ht).listening ((assembled_from b now s).listening hs)⟩
  rw [lineArrival, gateClosed_of_listening hs, if_neg Bool.false_ne_true, ht]

/-- Bytes on the line never stop a listening node, and it listens again after them (R186, 60 R285). -/
theorem deliver_listening (bs : List Byte) (now : Word32) {s : State} (hs : Listening s) :
    ∃ t, deliver bs now s = .next t ∧ Listening t := by
  induction bs generalizing s with
  | nil => exact ⟨s, rfl, hs⟩
  | cons b bs ih =>
    rw [deliver]
    split
    · exact ih (s := { s with lost := s.lost - 1 }) hs
    · obtain ⟨u, hu, hlu⟩ := lineArrival_listening b now hs
      rw [hu, andThen_next]
      exact ih hlu

/-- With the gate open, bytes that all arrived during the last response only use up the mark (43 R216). -/
theorem deliver_all_lost {bs : List Byte} {now : Word32} {s : State} (hg : gateClosed s = false)
    (hk : bs.length ≤ s.lost) : deliver bs now s = .next { s with lost := s.lost - bs.length } := by
  induction bs generalizing s with
  | nil => rfl
  | cons b bs ih =>
    rw [List.length_cons] at hk ⊢
    have ho : overtaken s = true := by simp [overtaken, hg]; omega
    rw [deliver, if_pos ho, ih (s := { s with lost := s.lost - 1 }) hg (by simp; omega)]
    simp [Nat.sub_sub, Nat.add_comm]

/-- Settles O53: the marked bytes go first, and every other one is answered by a listening node. -/
theorem listeningNodeTakesEveryFrame : Obligations.ListeningNodeTakesEveryFrame := by
  intro i bs s he hs
  have hg := gateClosed_of_listening hs
  rw [exec_eq_deliver he]
  refine ⟨?_, deliver_lost bs s.clock s.lost s hg, deliver_all_lost hg⟩
  obtain ⟨t, ht, hlt⟩ := deliver_listening bs s.clock hs
  have hnode := sameNode_of_arrivals (deliver_arrives ht)
  exact ⟨t, ht, hlt, hnode.myAddr, hnode.registry⟩

end Sys2Proof.Machine
end

section
/-! PROOF. The receive gate (43 R201, R202; O28, O29) and reception during a transmission (43 R213, 42 R186; O59): in
every phase from step (b) on the gate is closed, and a node that listens takes what arrives. -/

namespace Sys2Proof.Machine

open Sys2Proof

/-! The two positions of the gate. -/

theorem lineArrival_of_closed {b : Byte} {now : Word32} {s : State} (hg : gateClosed s = true) :
    lineArrival b now s = .next s := if_pos hg

theorem lineArrival_of_open {b : Byte} {now : Word32} {s : State} (hg : gateClosed s = false) :
    lineArrival b now s = receiveByte b now s := if_neg (by simp [hg])

theorem gateClosed_of_drive {s : State} (hd : s.drive = true) : gateClosed s = true := by
  simp [gateClosed, hd]

theorem gateClosed_of_rxSuppress {s : State} (hr : s.rxSuppress = true) : gateClosed s = true := by
  simp [gateClosed, hr]

/-- At a closed gate every byte is dropped, and none counts as overtaken (R202). -/
theorem deliver_of_closed (bs : List Byte) (now : Word32) {s : State} (hg : gateClosed s = true) :
    deliver bs now s = .next s := by
  induction bs with
  | nil => rfl
  | cons b bs ih =>
    have ho : overtaken s = false := by simp [overtaken, hg]
    rw [deliver, ho, if_neg Bool.false_ne_true, lineArrival_of_closed hg, andThen_next, ih]

/-- Settles O28: a node that drives the line has its gate closed, and a frame is its bytes. -/
theorem bytesAreDroppedWhileDriving : Obligations.BytesAreDroppedWhileDriving := by
  intro s hd
  have hg := gateClosed_of_drive hd
  exact ⟨fun _ _ => lineArrival_of_closed hg,
    fun i bs he => (exec_eq_deliver he s).trans (deliver_of_closed bs s.clock hg)⟩

/-- Settles O29: the two positions of the gate; what RXBYTE leaves in the buffer is O25. -/
theorem lineByteReachesTheAssemblerWhenListening : Obligations.LineByteReachesTheAssemblerWhenListening := by
  intro s b now
  refine ⟨fun hd hr => ?_, fun hr => lineArrival_of_closed (gateClosed_of_rxSuppress hr)⟩
  have hx : exec (.lineByte b now) s = exec (.rxByte b now) s := lineArrival_of_open (by simp [gateClosed, hd, hr])
  obtain ⟨-, hidx, hanswers⟩ := rxByteNeverOverrunsTheBuffer s b now
  refine ⟨hx, fun ha => ?_⟩
  obtain ⟨t, ht⟩ := hanswers ha
  exact ⟨t, hx.trans ht, hidx t ht⟩

/-! Arriving bytes in any phase. -/

/-- But for an accepted request that waits for step (a), the flags leave two positions (10 R38). -/
theorem closed_or_listening {s : State} (hd : DirectionInv s) (ha : s.phase ≠ .a) :
    gateClosed s = true ∨ Listening s := by
  obtain ⟨hr, hv, hx⟩ := hd
  cases hp : s.phase <;> rw [hp] at hr hv hx
  case a => exact absurd hp ha
  case listen => exact .inr ⟨hp, hv, hr, hx⟩
  all_goals exact .inl (gateClosed_of_rxSuppress hr)

section Answers
variable {s : State} (h : gateClosed s = true ∨ Listening s)
include h

theorem lineArrival_answers (b : Byte) (now : Word32) : ∃ t, lineArrival b now s = .next t := by
  rcases h with hg | hl
  · exact ⟨s, lineArrival_of_closed hg⟩
  · obtain ⟨t, ht, -⟩ := lineArrival_listening b now hl
    exact ⟨t, ht⟩

theorem deliver_answers (bs : List Byte) (now : Word32) : ∃ t, deliver bs now s = .next t := by
  rcases h with hg | hl
  · exact ⟨s, deliver_of_closed bs now hg⟩
  · obtain ⟨t, ht, -⟩ := deliver_listening bs now hl
    exact ⟨t, ht⟩

end Answers

theorem fetchWire_nil (t : Word32) (rest : List Input) {s : State} (ho : overtaken s = false) :
    fetchWire t [] rest s = .answer (.next { s with clock := t, inbox := rest }) := by
  simp [fetchWire, ho, decode]

/-- Settles O59: step (a) is in its turn; else what is fetched is a frame or a byte that meets a closed gate or a
listening node, or nothing. -/
theorem receptionNeverStopsTheNode : Obligations.ReceptionNeverStopsTheNode := by
  intro s t bs rest ⟨_, hd, _⟩ hi
  by_cases ha : s.phase = .a
  · exact ⟨_, (step_of_run (fetch_phase_a ha)).trans (if_pos ha)⟩
  have hready := closed_or_listening hd ha
  have hf := fetch_arrival ha (.inl hi)
  cases ho : overtaken s with
  | true => exact ⟨_, step_of_answer (hf.trans (fetchWire_overtaken ho))⟩
  | false =>
    match hx : decode bs with
    | .ok (i, tail) =>
      obtain ⟨-, e, he, -⟩ := decodeReadsOnlyEncodings i bs tail hx
      rw [step_of_run (hf.trans (fetchWire_frame ho hx)), exec_eq_deliver he]
      exact deliver_answers (s := { s with clock := t, inbox := putBack t tail rest }) hready e t
    | .error e =>
      cases bs with
      | nil => exact ⟨_, step_of_answer (hf.trans (fetchWire_nil t rest ho))⟩
      | cons b tail =>
        rw [step_of_run (hf.trans (fetchWire_byte ho hx))]
        exact lineArrival_answers (s := { s with clock := t, inbox := putBack t tail rest }) hready b t

end Sys2Proof.Machine
end

section
/-! PROOF. The transmit sequence of the Bus Direction Controller (43 R203 to R216; O30 to O34, O36). -/

namespace Sys2Proof.Machine

open Sys2Proof

/-! The eight steps in their turn. -/

section Steps
variable {s : State}

theorem exec_txA (hp : s.phase = .a) : exec .txA s = .next (txStepA s) := if_pos hp

theorem exec_txB (hp : s.phase = .b) : exec .txB s = .next (txStepB s) := if_pos hp

theorem exec_txC (hp : s.phase = .c) : exec .txC s = .next (txStepC s) := if_pos hp

theorem exec_txD (hp : s.phase = .d) : exec .txD s = .next (txStepD s) := if_pos hp

theorem exec_txE (d : TxDraw) (hp : s.phase = .e) : exec (.txE d) s = .next (txStepE d s) := if_pos hp

theorem exec_txF (hp : s.phase = .f) : exec .txF s = .next (txStepF s) := if_pos hp

theorem exec_txG (hp : s.phase = .g) : exec .txG s = .next (txStepG s) := if_pos hp

theorem exec_txH (hp : s.phase = .h) : exec .txH s = returnToCaller (txStepH s) := if_pos hp

end Steps

/-- Settles O32: each step is its update, in its turn. -/
theorem suppressDriveWriteRelease : Obligations.SuppressDriveWriteRelease :=
  ⟨fun _ => exec_txA, fun _ _ _ hr => lineArrival_of_closed (gateClosed_of_rxSuppress hr), fun _ => exec_txB,
    fun _ => exec_txD, fun _ => exec_txG⟩

/-- On a failure the bytes that reached the line are the head of the frame, but perhaps for the last of them (U4). -/
theorem appeared_failure (k : Nat) (x : Option Byte) (f : List Byte) :
    (appeared (.failure k x) f).length = (f.take k).length ∧
      (appeared (.failure k x) f).dropLast = (f.take k).dropLast := by
  cases x with
  | none => exact ⟨rfl, rfl⟩
  | some b => cases h : f.take k <;> simp [appeared, h]

theorem appeared_failure_getD {k : Nat} {x : Option Byte} {f : List Byte} {j : Nat}
    (hj : j + 1 < (appeared (.failure k x) f).length) : (appeared (.failure k x) f).getD j 0 = f.getD j 0 := by
  obtain ⟨hlen, hlast⟩ := appeared_failure k x f
  have hget {l : List Byte} (hl : j + 1 < l.length) : l[j]? = l.dropLast[j]? := by
    rw [List.getElem?_dropLast, if_pos (by omega)]
  have hk : j + 1 < (f.take k).length := hlen ▸ hj
  have hjk : j < k := by rw [List.length_take] at hk; omega
  rw [List.getD_eq_getElem?_getD, hget hj, hlast, ← hget hk, List.getElem?_take_of_lt hjk, List.getD_eq_getElem?_getD]

/-- Settles O33: the bytes a failure leaves on the line are those of `appeared`. -/
theorem waitAndCompletionSteps : Obligations.WaitAndCompletionSteps := by
  refine ⟨fun _ => exec_txC, fun _ => exec_txF, fun _ => exec_txE .ok, fun s k x hp => ?_⟩
  refine ⟨appeared (.failure k x) s.inFlight, exec_txE _ hp, ?_, fun j => appeared_failure_getD, ?_⟩
  · rw [(appeared_failure k x s.inFlight).1, List.length_take]
  · rintro rfl
    rfl

/-! The end of a request kept in steps. -/

theorem txAccount_answers (s : State) : ∃ t, txAccount s = .next t := by
  unfold txAccount
  split
  · exact ⟨_, rfl⟩
  · exact ⟨_, raise_txFail s⟩
  · exact ⟨_, rfl⟩

theorem returnToCaller_answers (s : State) : ∃ t, returnToCaller s = .next t := by
  unfold returnToCaller
  split
  · exact ⟨_, rfl⟩
  · exact ⟨_, rfl⟩
  · exact txAccount_answers _

/-- Settles O34: step (h) and then the return to the caller, which touches neither the flags nor the assembler. -/
theorem reenableStepRestoresListening : Obligations.ReenableStepRestoresListening := by
  intro s hp hd t u
  have hx : exec .txH s = returnToCaller t := exec_txH hp
  rw [hx]
  refine ⟨fun hc => ?_, fun hc => ?_, fun hc ho => ?_, fun hc ho => ?_, ?_⟩
  · simp [returnToCaller, t, hc]
  · simp [returnToCaller, t, u, hc, txReturn]
  · simp [returnToCaller, t, u, hc, txReturn, txAccount, ho]
  · simp [returnToCaller, t, u, hc, txReturn, txAccount, ho]
  · obtain ⟨v, hv⟩ := returnToCaller_answers t
    obtain ⟨he, -⟩ := returnToCaller_from hv
    have hl : Listening v := by rw [he]; exact ⟨rfl, hd, rfl, rfl⟩
    refine ⟨v, hv, hl, ?_, ?_, ?_, ?_, fun _ _ => lineArrival_of_open (gateClosed_of_listening hl)⟩ <;> rw [he]

/-! Requests. -/

theorem packetEncode_eq_none {dst src cmd : Byte} {p : List Byte} (h : packetEncode dst src cmd p = none) :
    250 < p.length := by
  by_contra hp
  simp [packetEncode_eq, hp] at h

theorem afterTxReq_of_encode {dst src cmd : Byte} {p f : List Byte} (h : packetEncode dst src cmd p = some f)
    (s : State) : afterTxReq dst src cmd p s = afterTx (crcOf (checkedBody dst src cmd p)) f s := by
  rw [packetEncode_eq] at h
  split at h
  · cases h
  · next hp =>
    rw [afterTxReq, if_neg hp]
    simp only
    rw [Option.some.inj h]
    rfl

/-- Settles O30: TXREQ with nothing in flight, on a payload that fits. -/
theorem txReqRunsTheWholeSequence : Obligations.TxReqRunsTheWholeSequence := by
  intro s dst src cmd p ha hp c f
  have he : packetEncode dst src cmd p = some f := by
    rw [packetEncode_eq, if_neg (by omega)]
    simp [le16, f, c]
  refine (txRequest_of_inactive dst src cmd p s ha).trans ?_
  rw [afterTxReq_of_encode he]
  rfl

/-! A second request. -/

theorem runHandler_builtin_of_active {h : Handler} (hb : h ∈ [Handler.ping, .getVersion, .heartbeat, .getStatus])
    (p : Packet) {s : State} (ha : s.txActive = true) : runHandler h p s = .refused .reentrantTx := by
  cases h with
  | external id => simp at hb
  | _ => exact transmit_of_active _ _ _ _ s ha

section Dispatch
variable {p : Packet} {s : State} (hd : p.dst = s.myAddr ∨ p.dst = 0x00)
include hd

theorem addressed_of_dst : addressed p s = true := by
  simp only [addressed, Bool.or_eq_true, decide_eq_true_eq]
  exact hd

theorem dispatchPacket_of_handler {h : Handler} (hf : Registry.find s.registry p.cmd.toNat = some h) :
    dispatchPacket p s = runHandler h p { s with rxCount := s.rxCount + 1 } := by
  simp [dispatchPacket, addressed_of_dst hd, handlerOf, hf]

theorem dispatchPacket_of_unsupported (hf : Registry.find s.registry p.cmd.toNat = none) :
    dispatchPacket p s = errorResponse p.src .invalidCommand { s with rxCount := s.rxCount + 1 } := by
  simp [dispatchPacket, addressed_of_dst hd, handlerOf, hf]

end Dispatch

/-- Settles O31: all of these end in TXREQ, a request in steps or an external handler. -/
theorem secondRequestIsRefused : Obligations.SecondRequestIsRefused := by
  intro s h
  have hsend (dst src cmd : Byte) (p : List Byte) : transmit dst src cmd p s = .refused .reentrantTx :=
    transmit_of_active dst src cmd p s h
  refine ⟨fun dst src cmd p => ⟨txRequest_of_active dst src cmd p s h, hsend dst src cmd p⟩, ?_,
    fun p => ⟨hsend _ _ _ _, hsend _ _ _ _, hsend _ _ _ _, hsend _ _ _ _⟩, fun dst e => hsend _ _ _ _,
    fun src => hsend _ _ _ _, fun id p => externalReply_of_active id p s h,
    fun p hd => ⟨fun g hg hf => ?_, fun hf => ?_, fun id hf => ?_⟩⟩
  · intro c dst src cmd p rest ha hi
    exact (step_of_answer (fetch_openTx ha hi)).trans (if_pos h)
  · exact (dispatchPacket_of_handler hd hf).trans (runHandler_builtin_of_active hg p h)
  · exact (dispatchPacket_of_unsupported hd hf).trans
      (transmit_of_active _ _ _ _ { s with rxCount := s.rxCount + 1 } h)
  · exact (dispatchPacket_of_handler hd hf).trans (externalReply_of_active id p { s with rxCount := s.rxCount + 1 } h)

/-! A request kept in steps, without inputs between them (43 R216). -/

/-- Who waits for a request when it ends: TXREQ, or SEND, which counts. -/
def callerEnd : Caller → State → Res
  | .txReq, s => .next s
  | .send, s => txAccount s

theorem returnToCaller_eq {c : Caller} {s : State} (hc : s.caller = some c) :
    returnToCaller s = callerEnd c { txReturn s with caller := none } := by
  cases c <;> simp [returnToCaller, hc, callerEnd]

theorem callerEnd_withoutLost (c : Caller) (s : State) :
    callerEnd c { s with lost := 0 } = andThen (callerEnd c s) (fun t => .next { t with lost := 0 }) := by
  cases c with
  | txReq => rfl
  | send =>
    simp only [callerEnd, txAccount]
    split <;> simp_all

theorem callerEnd_of_encodeLen {c : Caller} {s : State} (hr : s.ret = .tx .encodeLen) : callerEnd c s = .next s := by
  cases c <;> simp [callerEnd, txAccount, hr]

theorem runSteps_succ {n : Nat} {s t : State} (h : step s = .next t) : runSteps (n + 1) s = runSteps n t := by
  rw [runSteps, h, andThen_next]

/-- A waiting node stays as it is (70 R315). -/
theorem runSteps_of_waiting (n : Nat) {s : State} (hi : s.inbox = []) (hp : s.phase = .listen) :
    runSteps n s = .next s := by
  induction n with
  | zero => rfl
  | succ n ih => rw [runSteps_succ (step_of_answer (fetch_empty_listen hi hp)), ih]

/-- Without inputs step (a) runs at once. -/
theorem step_accepted {s : State} (hi : s.inbox = []) (hp : s.phase = .a) : step s = .next (txStepA s) := by
  have hs : { s with inbox := dropCallA s.inbox } = s := by rw [hi]; cases s; cases hi; rfl
  rw [step_of_run (fetch_phase_a hp), hs, exec_txA hp]

/-- Without inputs the step that is due runs (R214). -/
theorem runSteps_due {n : Nat} {s t u : State} {i : Instr} (hi : s.inbox = []) (ha : s.phase ≠ .a)
    (hd : dueStep s = some (i, t)) (hx : exec i t = .next u) : runSteps (n + 1) s = runSteps n u :=
  runSteps_succ ((step_of_run (fetch_empty_due ha hi hd)).trans hx)

/-- From an accepted request the eight steps run in order, and the request returns; no mark of lost bytes is made. -/
theorem runSteps_accepted {s : State} (hi : s.inbox = []) (hp : s.phase = .a) :
    runSteps 8 s = returnToCaller { txSequence s with lost := s.lost } := by
  let t := txStepD (txStepC (txStepB (txStepA s)))
  let u := txStepE (nextDraw t) (dropDraw t)
  have hu : u.inbox = [] := by simp [u, t, hi]
  have hseq : { txSequence s with lost := s.lost } = txStepH (txStepG (txStepF u)) := by
    rw [show s.lost = (txStepH (txStepG (txStepF u))).lost by simp [u, t]]
    rfl
  have hH : step (txStepG (txStepF u)) = returnToCaller (txStepH (txStepG (txStepF u))) :=
    (step_of_run (fetch_empty_due (s := txStepG (txStepF u)) nofun hu rfl)).trans (exec_txH rfl)
  calc runSteps 8 s
    _ = runSteps 7 (txStepA s) := runSteps_succ (step_accepted hi hp)
    _ = runSteps 6 (txStepB (txStepA s)) := runSteps_due hi nofun rfl (exec_txB rfl)
    _ = runSteps 5 (txStepC (txStepB (txStepA s))) := runSteps_due hi nofun rfl (exec_txC rfl)
    _ = runSteps 4 t := runSteps_due hi nofun rfl (exec_txD rfl)
    _ = runSteps 3 u := runSteps_due hi nofun rfl (exec_txE _ (dropDraw_phase t))
    _ = runSteps 2 (txStepF u) := runSteps_due hu nofun rfl (exec_txF rfl)
    _ = runSteps 1 (txStepG (txStepF u)) := runSteps_due hu nofun rfl (exec_txG rfl)
    _ = andThen (step (txStepG (txStepF u))) .next := rfl
    _ = returnToCaller { txSequence s with lost := s.lost } := by rw [andThen_next_right, hH, hseq]

/-- Who waits for a request and what was lost before it leave no trace, once the request has returned. -/
theorem afterTx_withCaller (w : Word16) (f : List Byte) (c : Option Caller) (n : Nat) {s : State}
    (hc : s.caller = none) :
    { afterTx w f { s with caller := c, lost := n } with caller := none, lost := 0 } =
      { afterTx w f s with lost := 0 } := by
  cases hd : s.draws <;> simp [afterTx, dropDraw, nextDraw, hd, hc]

/-- A request kept in steps ends as TXREQ ends, and its caller goes on from there. -/
theorem runSteps_openRequest (c : Caller) (dst src cmd : Byte) (p : List Byte) {s : State} (hs : Listening s)
    (hc : s.caller = none) (hi : s.inbox = []) :
    andThen (openRequest c dst src cmd p { s with lost := 0 }) (runSteps 8) =
      callerEnd c { afterTxReq dst src cmd p s with lost := 0 } := by
  obtain ⟨hp, -, -, ha⟩ := hs
  cases he : packetEncode dst src cmd p with
  | none =>
    let t : State := { s with ret := .tx .encodeLen, lost := 0 }
    have hx : openRequest c dst src cmd p { s with lost := 0 } = .next t := by simp [openRequest, he, ha, t]
    rw [hx, andThen_next, runSteps_of_waiting 8 (s := t) hi hp, afterTxReq_of_gt _ _ _ (packetEncode_eq_none he),
      callerEnd_of_encodeLen rfl]
  | some f =>
    let t := txAccept dst src cmd p f { s with caller := some c, lost := 0 }
    have hx : openRequest c dst src cmd p { s with lost := 0 } = .next t := by simp [openRequest, he, ha]; rfl
    have hcaller : (txSequence t).caller = some c := by simp [txSequence, t]
    have hret : txReturn (txSequence t) =
        afterTx (crcOf (checkedBody dst src cmd p)) f { s with caller := some c, lost := 0 } := txSequence_accept ..
    calc andThen (openRequest c dst src cmd p { s with lost := 0 }) (runSteps 8)
      _ = returnToCaller { txSequence t with lost := 0 } := by rw [hx]; exact runSteps_accepted (s := t) hi rfl
      _ = callerEnd c { txReturn (txSequence t) with caller := none, lost := 0 } := returnToCaller_eq hcaller
      _ = callerEnd c { afterTxReq dst src cmd p s with lost := 0 } := by
        rw [hret, afterTx_withCaller _ _ _ _ hc, afterTxReq_of_encode he]

theorem runSteps_openTx (c : Caller) (dst src cmd : Byte) (p : List Byte) {s : State} (hs : Listening s)
    (hc : s.caller = none) (hi : s.inbox = []) :
    runSteps 9 { s with inbox := [.openTx c dst src cmd p] } =
      callerEnd c { afterTxReq dst src cmd p s with lost := 0 } := by
  have ⟨hp, _⟩ := hs
  let v : State := { s with inbox := [.openTx c dst src cmd p] }
  have ha : v.phase ≠ .a := by simp [v, hp]
  have hopen : step v = openRequest c dst src cmd p { s with inbox := [], lost := 0 } :=
    step_of_answer (fetch_openTx ha rfl)
  rw [runSteps, hopen, ← hi]
  exact runSteps_openRequest c dst src cmd p hs hc hi

/-- Settles O36: TXREQ and SEND end as a request kept in steps does, but for the mark of lost bytes. -/
theorem stepByStepEqualsOneTransition : Obligations.StepByStepEqualsOneTransition := by
  intro s dst src cmd p hs hc hi
  have ⟨_, _, _, ha⟩ := hs
  have htx : exec (.txReq dst src cmd p) s = .next (afterTxReq dst src cmd p s) := txRequest_of_inactive _ _ _ _ s ha
  have hsend : exec (.send dst src cmd p) s = txAccount (afterTxReq dst src cmd p s) := by
    show andThen (exec (.txReq dst src cmd p) s) txAccount = _
    rw [htx, andThen_next]
  rw [hsend, htx]
  exact ⟨(runSteps_openTx .send dst src cmd p hs hc hi).trans (callerEnd_withoutLost .send _),
    runSteps_openTx .txReq dst src cmd p hs hc hi⟩

end Sys2Proof.Machine
end

section
/-! PROOF. The Command Dispatcher and the Node Status Register (44 R231 to R248; O37 to O46, O52): what SEND leaves on
the line and counts, then DISPATCH case by case, each response as one SEND, and the writes of the status register. -/

namespace Sys2Proof.Machine

open Sys2Proof

/-! SEND on a payload that fits (44 R246). -/

section Send
variable (dst src cmd : Byte) {p : List Byte} {s : State} (hp : p.length ≤ 250)
include hp

theorem afterTxReq_of_le : afterTxReq dst src cmd p s =
    afterTx (crcOf ([dst, src, cmd, BitVec.ofNat 8 p.length] ++ p))
      ([0xAA, dst, src, cmd, BitVec.ofNat 8 p.length] ++ p ++
        le16 (crcOf ([dst, src, cmd, BitVec.ofNat 8 p.length] ++ p)) ++ [0x55]) s :=
  if_neg (Nat.not_lt.2 hp)

theorem afterTxReq_ret : (afterTxReq dst src cmd p s).ret = .tx (drawResult (nextDraw s)) := by
  rw [afterTxReq_of_le dst src cmd hp, afterTx]

theorem afterSend_of_ok (hd : nextDraw s = .ok) :
    afterSend dst src cmd p s = { afterTxReq dst src cmd p s with txCount := s.txCount + 1 } := by
  simp only [afterSend, afterTxReq_ret dst src cmd hp, hd, drawResult]

theorem afterSend_of_failure {k : Nat} {x : Option Byte} (hd : nextDraw s = .failure k x) :
    afterSend dst src cmd p s = { afterTxReq dst src cmd p s with errCount := s.errCount + 1 } := by
  simp only [afterSend, afterTxReq_ret dst src cmd hp, hd, drawResult]

/-- A SEND with draw ok counts one transmission and no error. -/
theorem afterSend_counts_of_ok (hd : nextDraw s = .ok) :
    (afterSend dst src cmd p s).errCount = s.errCount ∧ (afterSend dst src cmd p s).txCount = s.txCount + 1 := by
  rw [afterSend_of_ok dst src cmd hp hd]
  exact ⟨afterTxReq_errCount dst src cmd p s, rfl⟩

/-- The whole frame is written to the line (43 R207). -/
theorem afterSend_lineTx_of_ok (hd : nextDraw s = .ok) : (afterSend dst src cmd p s).lineTx =
    s.lineTx ++ ([0xAA, dst, src, cmd, BitVec.ofNat 8 p.length] ++ p ++
      le16 (crcOf ([dst, src, cmd, BitVec.ofNat 8 p.length] ++ p)) ++ [0x55]) := by
  rw [afterSend_of_ok dst src cmd hp hd, afterTxReq_of_le dst src cmd hp, afterTx]

end Send

/-- Settles O37: the draw is the result SEND counts. -/
theorem sendCountsTheOutcomeOnce : Obligations.SendCountsTheOutcomeOnce := by
  intro s dst src cmd p ha hp
  have hsend : exec (.send dst src cmd p) s = .next (afterSend dst src cmd p s) :=
    transmit_of_inactive dst src cmd p s ha
  refine ⟨_, txRequest_of_inactive dst src cmd p s ha, fun hd => ?_, fun k x hd => ?_, _, hsend⟩
  · rw [hsend, afterSend_of_ok dst src cmd hp hd]
  · rw [hsend, afterSend_of_failure dst src cmd hp hd]

/-! DISPATCH (44 R231 to R235). -/

theorem dispatchPacket_of_filtered {p : Packet} {s : State} (hd : p.dst ≠ s.myAddr) (hb : p.dst ≠ 0x00) :
    dispatchPacket p s = .next s := by
  have hf : addressed p s = false := by
    rw [addressed, decide_eq_false hd, decide_eq_false (show p.dst ≠ broadcast from hb), Bool.false_or]
  rw [dispatchPacket, if_neg (by simp [hf])]

/-- A packet that passes the filter is received once, whatever its handler does (44 R233). -/
theorem dispatchPacket_rxCount {p : Packet} {s t : State} (hd : p.dst = s.myAddr ∨ p.dst = 0x00)
    (h : dispatchPacket p s = .next t) : t.rxCount = s.rxCount + 1 := by
  cases hf : Registry.find s.registry p.cmd.toNat with
  | some g =>
    rw [dispatchPacket_of_handler hd hf] at h
    exact (runHandler_counted h).1
  | none =>
    rw [dispatchPacket_of_unsupported hd hf] at h
    exact (transmit_counted h).1

theorem dispatch_answers_and_counts {p : Packet} {s : State} (hd : p.dst = s.myAddr ∨ p.dst = 0x00)
    (ha : s.txActive = false) : ∃ t, exec (.dispatch p) s = .next t ∧ t.rxCount = s.rxCount + 1 := by
  obtain ⟨t, ht⟩ := dispatchPacket_answers p s ha
  exact ⟨t, ht, dispatchPacket_rxCount hd ht⟩

theorem exec_handlerInstr (h : Handler) (p : Packet) (s : State) :
    exec (handlerInstr h p) s = runHandler h p s := by
  cases h <;> rfl

/-- Settles O38: the filter decides, and what passes is received once. -/
theorem filteredPacketChangesNothing : Obligations.FilteredPacketChangesNothing :=
  fun _ _ => ⟨dispatchPacket_of_filtered, dispatch_answers_and_counts⟩

/-- Settles O39: by the registry entry of the packet's code. -/
theorem dispatchCountsThenRunsTheHandler : Obligations.DispatchCountsThenRunsTheHandler := by
  intro s p hd t
  refine ⟨fun h hf => ?_, dispatchPacket_of_unsupported hd, dispatch_answers_and_counts hd⟩
  rw [exec_handlerInstr]
  exact dispatchPacket_of_handler hd hf

/-- Settles O40: without a handler the answer is ERRRESP, which is one SEND. -/
theorem unsupportedCommandIsAnswered : Obligations.UnsupportedCommandIsAnswered := by
  intro s p hd ha hf
  exact (dispatchPacket_of_unsupported hd hf).trans
    (transmit_of_inactive p.src s.myAddr 0xFF [0x03, s.myAddr] { s with rxCount := s.rxCount + 1 } ha)

/-- Settles O52: the frame is dispatched, and the filter drops it. -/
theorem frameForAnotherNodeIsSilent : Obligations.FrameForAnotherNodeIsSilent := by
  intro i c f s he hd hr ha hw hf hl hp hfin hcrc hdst hbroadcast
  obtain ⟨hx, -⟩ := goodFrameIsDispatchedOnce i c f s he hd hr ha hw hf hl hp hfin hcrc
  exact hx.trans (dispatchPacket_of_filtered hdst hbroadcast)

/-! The responses (44 R236 to R245). -/

theorem exec_ping (p : Packet) {s : State} (ha : s.txActive = false) :
    exec (.ping p) s = .next (afterSend p.src s.myAddr 0x02 [] s) :=
  transmit_of_inactive _ _ _ _ s ha

/-- The frame of a ping request to this node, or to all: its packet is counted, and then PING runs with it. -/
theorem exec_fPing_of_good {f : FrameFields} {s : State} (hs : Listening s) (hl : s.lost = 0)
    (hw : Memory.wf s.buf = true) (hf : FreshAt s.clock s) (hp : f.payload.length ≤ 248) (hfin : f.fin = 0x55)
    (hcrc : f.crc = frameCrc codePing f) (hdst : f.dst = s.myAddr ∨ f.dst = 0x00)
    (hping : Registry.find s.registry 0x01 = some .ping) :
    ∃ u : State, exec (.fPing f) s = .next (afterSend f.src s.myAddr 0x02 [] u) ∧ nextDraw u = nextDraw s ∧
      u.lineTx = s.lineTx ∧ u.rxCount = s.rxCount + 1 ∧ u.txCount = s.txCount ∧ u.errCount = s.errCount := by
  obtain ⟨_, hd, hr, ha⟩ := hs
  let p : Packet := ⟨f.dst, f.src, codePing, f.payload, f.crc⟩
  let u := afterHandOff (frameBytes codePing f) f.payload.length f.crc (.frameValid p) s
  let v : State := { u with rxCount := s.rxCount + 1 }
  obtain ⟨hx, -⟩ := goodFrameIsDispatchedOnce (.fPing f) codePing f s rfl hd hr ha hw hf hl hp hfin hcrc
  have hrun : exec (.fPing f) s = .next (afterSend f.src s.myAddr 0x02 [] v) := calc
    exec (.fPing f) s = exec (.dispatch p) u := hx
    _ = exec (.ping p) v := dispatchPacket_of_handler (p := p) (s := u) hdst hping
    _ = .next (afterSend f.src s.myAddr 0x02 [] v) := exec_ping p (s := v) ha
  exact ⟨v, hrun, rfl, rfl, rfl, rfl, rfl⟩

/-- Settles O41: the frame of the ping ends in a SEND whose draw is ok. -/
theorem pingIsAnswered : Obligations.PingIsAnswered := by
  refine ⟨fun s p => exec_ping p, ?_⟩
  intro s hs hl hi hw hm hdraw hf rq rs
  have hcrc : rq = frameCrc codePing ⟨0x02, 0x10, [], rq, 0x55⟩ := rfl
  -- From here on the checksum stands by its name, so that nothing computes it.
  clear_value rq
  obtain ⟨u, hx, hdu, hline, hrx, htx, herr⟩ :=
    exec_fPing_of_good (f := ⟨0x02, 0x10, [], rq, 0x55⟩) hs hl hw (.inl hi) (Nat.zero_le _) rfl hcrc (.inl hm.symm)
      hf
  have hfits : ([] : List Byte).length ≤ 250 := Nat.zero_le _
  have hok : nextDraw u = .ok := hdu.trans hdraw
  obtain ⟨hsame, hone⟩ := afterSend_counts_of_ok 0x10 0x02 0x02 hfits hok
  rw [hm] at hx
  refine ⟨_, hx, ?_, by rw [afterSend_rxCount, hrx], by rw [hone, htx], hsame.trans herr⟩
  rw [afterSend_lineTx_of_ok 0x10 0x02 0x02 hfits hok, hline]
  rfl

/-- The low two bytes of a counter (30 R105). -/
theorem le16_setWidth (w : Word32) : le16 (w.setWidth 16) = [w.extractLsb' 0 8, w.extractLsb' 8 8] := by
  rw [le16, BitVec.extractLsb'_setWidth_of_le (by decide), BitVec.extractLsb'_setWidth_of_le (by decide)]

/-- Settles O42: each reply is one SEND of its payload. -/
theorem versionHeartbeatStatusReplies : Obligations.VersionHeartbeatStatusReplies := by
  intro s p ha
  have hstatus : exec (.getStatus p) s = .next (afterSend p.src s.myAddr 0x11 (statusPayload s) s) :=
    transmit_of_inactive _ _ _ _ s ha
  rw [statusPayload, le16_setWidth] at hstatus
  exact ⟨transmit_of_inactive _ _ _ _ s ha, transmit_of_inactive _ _ _ _ s ha, hstatus⟩

/-- Settles O43: both responses are one SEND, and a checksum error counts nothing of its own. -/
theorem errorResponsesNameCodeAndNode : Obligations.ErrorResponsesNameCodeAndNode := by
  intro s ha
  refine ⟨fun dst e => transmit_of_inactive _ _ _ _ s ha, fun src => ?_⟩
  exact ⟨_, transmit_of_inactive _ _ _ _ s ha, rfl, afterSend_rxCount ..,
    afterSend_counts_of_ok src s.myAddr 0xFF (p := [0x01, s.myAddr]) (show 2 ≤ 250 by decide)⟩

/-- Settles O44: by what the free function gives. -/
theorem externalHandlerSendsAtMostOnce : Obligations.ExternalHandlerSendsAtMostOnce := by
  intro s id p ha u
  have hx : exec (.extHandler id p) s = externalReply id p s := rfl
  refine ⟨fun hn => ?_, fun r hr => ?_, runHandler_answers (.external id) p s ha⟩
  · simp only [hx, externalReply, hn, u]
  · simp only [hx, externalReply, hr]
    exact transmit_of_inactive _ _ _ _ u ha

/-! The registry and the status register (44 R244, R247, R248). -/

/-- Settles O45: a look-up after a registration, at codes that are bytes. -/
theorem lastRegistrationWins : Obligations.LastRegistrationWins := by
  refine fun s c h => ⟨_, rfl, rfl, fun d => ?_⟩
  rw [Registry.find_put]
  simp only [BitVec.toNat_inj]

/-- Settles O46: each writes its one field. -/
theorem tickAndSetHealthWriteOneField : Obligations.TickAndSetHealthWriteOneField :=
  ⟨fun _ ms => ⟨_, rfl, rfl, BitVec.toNat_ofNat (ms / 1000) 32⟩, fun _ _ => rfl⟩

end Sys2Proof.Machine
end

section
/-! PROOF. Only contract violations stop a node with nothing in flight (60 R270, R278; O58): arriving bytes leave nothing
in flight, and every other kind of operation answers or is one of the violations. -/

namespace Sys2Proof.Machine

open Sys2Proof

/-! Arriving bytes at a node with nothing in flight. -/

theorem Arrives.txActive {s t : State} (h : Arrives s t) (hs : s.txActive = false) : t.txActive = false := by
  cases h with
  | lost => exact hs
  | dropped => exact hs
  | received b now h =>
    have ha : (assembled b now s).1.txActive = false := by rw [assembled_from b now s, hs]
    exact (receiveByte_from h).txActive ha

/-- Whatever the gate's position, a LINEBYTE answers (43 R201). -/
theorem lineArrival_answers_of_inactive (b : Byte) (now : Word32) {s : State} (hs : s.txActive = false) :
    ∃ t, lineArrival b now s = .next t := by
  cases hg : gateClosed s with
  | true => exact ⟨s, lineArrival_of_closed hg⟩
  | false => rw [lineArrival_of_open hg]; exact receiveByte_answers b now hs

/-- Each byte leaves nothing in flight, so the next one answers too. -/
theorem deliver_answers_of_inactive (bs : List Byte) (now : Word32) {s : State} (hs : s.txActive = false) :
    ∃ t, deliver bs now s = .next t := by
  induction bs generalizing s with
  | nil => exact ⟨s, rfl⟩
  | cons b bs ih =>
    rw [deliver]
    split
    · exact ih (s := { s with lost := s.lost - 1 }) hs
    · obtain ⟨u, hu⟩ := lineArrival_answers_of_inactive b now hs
      rw [hu, andThen_next]
      exact ih ((arrives_of_lineArrival hu).txActive hs)

/-! RESET and the steps. -/

/-- RESET stops only at the broadcast address. -/
theorem execReset_answers {a : BootParams} (ha : a.myAddr ≠ 0x00) (s : State) : execReset a s = .next (boot a s) :=
  if_neg ha

theorem eq_of_isTxStep {i : Instr} (h : isTxStep i = true) : i = .txA ∨ i = .txB ∨ i = .txC ∨ i = .txD ∨
    (∃ d, i = .txE d) ∨ i = .txF ∨ i = .txG ∨ i = .txH := by
  cases i <;> simp [isTxStep] at h ⊢

/-- Settles O58, by the kind of the operation. -/
theorem onlyContractViolationsStop : Obligations.OnlyContractViolationsStop := by
  intro i s hs
  cases kind_of i with
  | frame _ _ hx => rw [hx]; exact .inl (deliver_answers_of_inactive _ s.clock hs)
  | rxByte b now => exact .inl (receiveByte_answers b now hs)
  | lineByte b now => exact .inl (lineArrival_answers_of_inactive b now hs)
  | txReq dst src cmd payload => exact .inl ⟨_, txRequest_of_inactive _ _ _ _ s hs⟩
  | request dst cmd src payload _ hx => exact .inl ⟨_, (hx s).trans (transmit_of_inactive _ _ _ _ s hs)⟩
  | handler g p _ hx => rw [hx]; exact .inl (runHandler_answers g p s hs)
  | dispatch p => exact .inl (dispatchPacket_answers p s hs)
  | codec c r _ hx => exact .inl ⟨_, hx s⟩
  | shortDecode bs hb => exact .inr (.inl ⟨bs, rfl, hb⟩)
  | txStep hi => exact .inr (.inr (.inr (eq_of_isTxStep hi)))
  | register c g => exact .inl ⟨_, rfl⟩
  | tick ms => exact .inl ⟨_, rfl⟩
  | setHealth v => exact .inl ⟨_, rfl⟩
  | reset a =>
    by_cases ha : a.myAddr = 0x00
    · exact .inr (.inr (.inl ⟨a, rfl, ha⟩))
    · exact .inl ⟨_, execReset_answers ha s⟩

end Sys2Proof.Machine
end

section
/-! PROOF. RESET gives the values of the table (10 R39, 70 R310; O47): the registry is a fold of registrations, the other
fields are written by `boot` as they stand. -/

namespace Sys2Proof.Machine

open Sys2Proof

/-- A look-up after a list of registrations finds the last one for its code, else what the table held before. -/
theorem Registry.find_registerAll (hs : List (Byte × Handler)) (r : Registry) (c : Byte) :
    Registry.find (registerAll hs r) c.toNat =
      ((hs.reverse.find? (fun x => x.1 = c)).map (fun x => x.2)).or (Registry.find r c.toNat) := by
  induction hs generalizing r with
  | nil => rfl
  | cons x hs ih =>
    have hcons : registerAll (x :: hs) r = registerAll hs (Registry.put r x.1.toNat x.2) := rfl
    rw [hcons, ih, Registry.find_put, List.reverse_cons, List.find?_append]
    by_cases hx : x.1 = c
    · cases hs.reverse.find? (fun x => x.1 = c) <;> simp [hx]
    · have hc : c.toNat ≠ x.1.toNat := fun h => hx (BitVec.eq_of_toNat_eq h.symm)
      simp [hx, hc]

/-- After boot a code has the last handler registered for it, the built-ins being registered first (R34, R39). -/
theorem boot_find_registry (a : BootParams) (s : State) (c : Byte) :
    Registry.find (boot a s).registry c.toNat =
      ((builtinHandlers ++ a.registryInit).reverse.find? (fun x => x.1 = c)).map (fun x => x.2) :=
  (Registry.find_registerAll _ [] c).trans Option.or_none

/-- After boot the node listens, in Idle (R39). -/
theorem boot_listening (a : BootParams) (s : State) : Listening (boot a s) := ⟨rfl, rfl, rfl, rfl⟩

/-- RESET to the broadcast address is refused (10 R33). -/
theorem execReset_of_broadcast {a : BootParams} (ha : a.myAddr = 0x00) (s : State) :
    execReset a s = .refused .broadcastIdentity :=
  if_pos ha

/-- Settles O47: RESET is `boot`, which writes each value; the registry is looked up by `boot_find_registry`. -/
theorem resetGivesEveryValueOfTheTable : Obligations.ResetGivesEveryValueOfTheTable :=
  ⟨fun s a ha => ⟨boot a s, execReset_answers ha s, boot_listening a s, rfl, rfl, rfl, rfl, rfl, rfl, rfl, rfl, rfl, rfl,
    boot_find_registry a s, rfl, rfl, rfl, rfl, rfl⟩, fun s _ ha => execReset_of_broadcast ha s⟩

end Sys2Proof.Machine
end
